-- ==== Sys2Proof/Word.lean ====
section
/-! DEFINITION. Bytes and 16-bit counts, the words that cross the bridge's boundary. -/

namespace Sys2Proof

/-- A byte of a frame, message, image or store sector (chapter 11). -/
abbrev Byte := BitVec 8

/-- A 16-bit field: link counters (R158), event details (R193), check values (R202). -/
abbrev U16 := BitVec 16

end Sys2Proof
end

