-- ==== Sys2Proof/Syntax.lean ====
section
/-! DEFINITION. The commands the bridge takes: one constructor for each row of spec/opcode_table.json, with the
names of the axes, stations, circuits and channels they carry. -/

namespace Sys2Proof

/-- The five axes in axis index order (00_scope.md, Axes and stations). -/
inductive Axis where
  | x | y | z | w | b
deriving DecidableEq, Repr

/-- The six drive stations; 1 to 5 are the axes in index order, 6 is the spindle (00_scope.md). -/
inductive Station where
  | axis (a : Axis)
  | spindle
deriving DecidableEq, Repr

/-- The three coolant circuits (R75). -/
inductive Circuit where
  | flood | through | air
deriving DecidableEq, Repr

/-- The two pulse-width channels (R89): PW0 for THROUGH, PW1 for FLOOD. -/
inductive Channel where
  | pw0 | pw1
deriving DecidableEq, Repr

/-- The steps of the bridge, one constructor for each row of the table of operations and events. -/
inductive Instr where
  /-- COLD_RESET (R139). `done`: the sector offsets that an interrupted store phase had finished (R186). -/
  | coldReset (done : List Nat)
  /-- RESET_RELEASE (R139). -/
  | resetRelease
  /-- LOAD_END (R190). -/
  | loadEnd
  /-- WARM_RESET (R140). -/
  | warmReset
  /-- COMMAND_FRAME (R143). `data`: the data field of the Ethernet frame at the C-port (R202). -/
  | commandFrame (data : List Byte)
  /-- WINDOW_TIMER_EXPIRY (R150). -/
  | windowTimerExpiry
  /-- PERIOD_TIMER_EXPIRY (R148). -/
  | periodTimerExpiry
  /-- LINK_TIMER_EXPIRY (R154). -/
  | linkTimerExpiry
  /-- REST_TIMER_EXPIRY (R155). -/
  | restTimerExpiry
  /-- DRIVE_RETURN (R149). `data`: the data field of the Ethernet frame at the D-port (R202). -/
  | driveReturn (data : List Byte)
  /-- PASS_THROUGH_TIMER_EXPIRY (R163). -/
  | passThroughTimerExpiry (st : Station)
  /-- INPUT_LEVEL_CHANGE (R95): the raw level of input `n` becomes `high`. -/
  | inputLevelChange (n : Fin 48) (high : Bool)
  /-- DEBOUNCE_TIMER_EXPIRY (R95). -/
  | debounceTimerExpiry (n : Fin 48)
  /-- CLAMP_TIMER_EXPIRY (R41). -/
  | clampTimerExpiry (a : Axis)
  /-- PULSE_TIMER_EXPIRY (R102). -/
  | pulseTimerExpiry (n : Fin 32)
  /-- STOP_TIMER_EXPIRY (R62). -/
  | stopTimerExpiry
  /-- MESH_TIMER_EXPIRY (R63). -/
  | meshTimerExpiry
  /-- ATTEMPT_TIMER_EXPIRY (R66). -/
  | attemptTimerExpiry
  /-- CREEP_TIMER_EXPIRY (R64). -/
  | creepTimerExpiry
  /-- CONFIRM_TIMER_EXPIRY (R65). -/
  | confirmTimerExpiry
  /-- RETRY_TIMER_EXPIRY (R67). -/
  | retryTimerExpiry
  /-- SENSOR_TIMER_EXPIRY (R69). -/
  | sensorTimerExpiry
  /-- PRIME_TIMER_EXPIRY (R79). -/
  | primeTimerExpiry (c : Circuit)
  /-- LOSS_TIMER_EXPIRY (R80). -/
  | lossTimerExpiry (c : Circuit)
  /-- PURGE_TIMER_EXPIRY (R83). -/
  | purgeTimerExpiry
  /-- PERIOD_START (R90). -/
  | periodStart (ch : Channel)
  /-- CHARACTER_RECEIVED (R118): eight data bits, the parity bit and the level of the stop bit. -/
  | characterReceived (data : Byte) (parity stop : Bool)
  /-- DECODE_INTERVAL (R119). -/
  | decodeInterval
  /-- PENDANT_TIMER_EXPIRY (R125). -/
  | pendantTimerExpiry
  /-- DISPLAY_TIMER_EXPIRY (R133). -/
  | displayTimerExpiry
  /-- CTS_CHANGE (R120): the level of CTS. -/
  | ctsChange (asserted : Bool)
  /-- TRANSMIT_BYTE_DONE (R120). -/
  | transmitByteDone
  /-- DRAIN_TIMER_EXPIRY (R135). -/
  | drainTimerExpiry
  /-- STORE_PHASE_END (R185). `bad`: the bytes of the sector that this phase left, or read back, otherwise than
  it should have (offset in the sector, byte); empty for sound flash. -/
  | storePhaseEnd (bad : List Host.Cell)
  /-- STORE_PHASE_TIMEOUT (R185). `done`: the sector offsets that the phase had finished. -/
  | storePhaseTimeout (done : List Nat)
  /-- HIGH_PART_END (R89). -/
  | highPartEnd (ch : Channel)
deriving DecidableEq, Repr

end Sys2Proof
end

