-- ==== Sys2Proof/Decode.lean ====
section
/-! DEFINITION. Reading a command from a word by the bits of spec/opcode_table.json. -/

namespace Sys2Proof

/-- No row of the table gives bits (every row's "fields" is empty), so no word spells a command. -/
def decodeTableWord (_nbits _w : Nat) : Option Instr := none

end Sys2Proof
end

