-- ==== Sys2Proof/Machine/Bytes.lean ====
section
/-! DEFINITION. Byte order, signed fields, the check algorithms and the manual's rounding (00_scope.md, R202, R204). -/

namespace Sys2Proof.Machine

/-- A 2-byte field, least significant byte first (chapter 11). -/
def le16 (n : Nat) : List Byte := [BitVec.ofNat 8 n, BitVec.ofNat 8 (n / 256)]

/-- A 4-byte field, least significant byte first. -/
def le32 (n : Nat) : List Byte :=
  [BitVec.ofNat 8 n, BitVec.ofNat 8 (n / 256), BitVec.ofNat 8 (n / 65536), BitVec.ofNat 8 (n / 16777216)]

/-- A signed 4-byte field in two's complement. -/
def sle32 (v : Int) : List Byte := le32 (v % 4294967296).toNat

def byteAt (l : List Byte) (i : Nat) : Nat := (l.getD i 0).toNat

def bitAt (l : List Byte) (i b : Nat) : Bool := (l.getD i 0).getLsbD b

def u16At (l : List Byte) (i : Nat) : Nat := byteAt l i + 256 * byteAt l (i + 1)

def u32At (l : List Byte) (i : Nat) : Nat := u16At l i + 65536 * u16At l (i + 2)

/-- Two's complement of 16 bits. -/
def s16At (l : List Byte) (i : Nat) : Int :=
  let u := u16At l i
  if u < 32768 then u else (u : Int) - 65536

/-- Two's complement of 32 bits. -/
def s32At (l : List Byte) (i : Nat) : Int :=
  let u := u32At l i
  if u < 2147483648 then u else (u : Int) - 4294967296

/-- The bytes from offset `i`, `n` of them at most. -/
def slice (l : List Byte) (i n : Nat) : List Byte := (l.drop i).take n

/-- One shift of the CRC-16 register (R202). -/
def crcShift (c : BitVec 16) : BitVec 16 := if c.msb then (c <<< 1) ^^^ 0x1021#16 else c <<< 1

/-- One byte of the CRC-16 (R202): XORed into the upper eight bits, then eight shifts. -/
def crcByte (c : BitVec 16) (b : Byte) : BitVec 16 := Nat.repeat crcShift 8 (c ^^^ (b.setWidth 16 <<< 8))

/-- The register after the bytes of `l` in turn. Both cases say the same: the comparison makes Lean's kernel settle each
byte before the next, so that long frames can be evaluated (`crcFrom_eq_foldl`). -/
def crcFrom (c : BitVec 16) : List Byte → BitVec 16
  | [] => c
  | b :: l => if crcByte c b = 0 then crcFrom 0 l else crcFrom (crcByte c b) l

/-- The CRC-16 of R202. -/
def crc16 (l : List Byte) : BitVec 16 := crcFrom 0xFFFF#16 l

/-- The 8-bit sum of R204. -/
def byteSum (l : List Byte) : Byte := l.foldl (· + ·) 0

/-- Round half away from zero of `n / d` (00_scope.md, Rounding and arithmetic). -/
def roundDiv (n : Int) (d : Nat) : Int :=
  if 0 ≤ n then (2 * n + d) / (2 * d) else -((2 * (-n) + d) / (2 * d))

/-- clamp(v, lo, hi) of 00_scope.md. -/
def clampInt (v lo hi : Int) : Int := if v < lo then lo else if hi < v then hi else v

/-- Limited to the signed 32 range (R16, R36, R56). -/
def sat32 (v : Int) : Int := clampInt v (-2147483648) 2147483647

/-- sign(v) of 00_scope.md. -/
def signInt (v : Int) : Int := if v < 0 then -1 else if v = 0 then 0 else 1

/-- Bit `n` of a flag byte, set when `v` holds. -/
def flagBit (v : Bool) (n : Nat) : Nat := if v then 2 ^ n else 0

end Sys2Proof.Machine
end

