-- ==== Sys2Proof/Config.lean ====
section
/-! DEFINITION. What is fixed for one bridge, the free values, and the contents of the twenty tables as the blocks
read them, with the built-in default of each. -/

namespace Sys2Proof

/-- One value for each axis. -/
structure PerAxis (α : Type) where
  x : α
  y : α
  z : α
  w : α
  b : α
deriving DecidableEq, Repr

def PerAxis.get {α : Type} (p : PerAxis α) : Axis → α
  | .x => p.x | .y => p.y | .z => p.z | .w => p.w | .b => p.b

def PerAxis.set {α : Type} (p : PerAxis α) (a : Axis) (v : α) : PerAxis α :=
  match a with
  | .x => { p with x := v } | .y => { p with y := v } | .z => { p with z := v }
  | .w => { p with w := v } | .b => { p with b := v }

def PerAxis.all {α : Type} (v : α) : PerAxis α := ⟨v, v, v, v, v⟩

def PerAxis.ofFn {α : Type} (g : Axis → α) : PerAxis α := ⟨g .x, g .y, g .z, g .w, g .b⟩

/-- The axes in axis index order. -/
def axes : List Axis := [.x, .y, .z, .w, .b]

/-- Axis index (00_scope.md, Axes and stations). -/
def Axis.index : Axis → Nat
  | .x => 0 | .y => 1 | .z => 2 | .w => 3 | .b => 4

def Axis.ofIndex : Nat → Option Axis
  | 0 => some .x | 1 => some .y | 2 => some .z | 3 => some .w | 4 => some .b | _ => none

/-- X, Y, Z and W are linear, B is rotary. -/
def Axis.linear : Axis → Bool
  | .b => false
  | _ => true

/-- One value for each drive station. -/
structure PerStation (α : Type) where
  axis : PerAxis α
  spindle : α
deriving DecidableEq, Repr

def PerStation.get {α : Type} (p : PerStation α) : Station → α
  | .axis a => p.axis.get a
  | .spindle => p.spindle

def PerStation.set {α : Type} (p : PerStation α) (st : Station) (v : α) : PerStation α :=
  match st with
  | .axis a => { p with axis := p.axis.set a v }
  | .spindle => { p with spindle := v }

def PerStation.all {α : Type} (v : α) : PerStation α := ⟨.all v, v⟩

/-- The stations in number order 1 to 6. -/
def stations : List Station := [.axis .x, .axis .y, .axis .z, .axis .w, .axis .b, .spindle]

/-- Station number 1 to 6. -/
def Station.number : Station → Nat
  | .axis a => a.index + 1
  | .spindle => 6

def Station.ofNumber : Nat → Option Station
  | 1 => some (.axis .x) | 2 => some (.axis .y) | 3 => some (.axis .z) | 4 => some (.axis .w)
  | 5 => some (.axis .b) | 6 => some .spindle | _ => none

/-- One value for each coolant circuit. -/
structure PerCircuit (α : Type) where
  flood : α
  through : α
  air : α
deriving DecidableEq, Repr

def PerCircuit.get {α : Type} (p : PerCircuit α) : Circuit → α
  | .flood => p.flood | .through => p.through | .air => p.air

def PerCircuit.set {α : Type} (p : PerCircuit α) (c : Circuit) (v : α) : PerCircuit α :=
  match c with
  | .flood => { p with flood := v } | .through => { p with through := v } | .air => { p with air := v }

def PerCircuit.all {α : Type} (v : α) : PerCircuit α := ⟨v, v, v⟩

/-- The circuits in the order of R75. -/
def circuits : List Circuit := [.flood, .through, .air]

/-- Ranges of the gearbox; a current range that is UNKNOWN is the absence of one (R51). -/
inductive Gear where
  | i | ii | iii | iv | neutral
deriving DecidableEq, Repr

/-- The ranges in the order of the range request (R58). -/
def gears : List Gear := [.i, .ii, .iii, .iv, .neutral]

/-- The number of a range in requests, details and echo frames (R200). -/
def Gear.number : Gear → Nat
  | .i => 1 | .ii => 2 | .iii => 3 | .iv => 4 | .neutral => 5

def Gear.ofNumber : Nat → Option Gear
  | 1 => some .i | 2 => some .ii | 3 => some .iii | 4 => some .iv | 5 => some .neutral | _ => none

/-- The 16 permissions (R105). -/
inductive Perm where
  | move (a : Axis)
  | spindleRun
  | gearShift
  | unclamp (a : Axis)
  | coolant (c : Circuit)
  | handwheel
deriving DecidableEq, Repr

/-- Permission numbers of R105. -/
def Perm.number : Perm → Nat
  | .move a => a.index
  | .spindleRun => 5
  | .gearShift => 6
  | .unclamp a => 7 + a.index
  | .coolant .flood => 12
  | .coolant .through => 13
  | .coolant .air => 14
  | .handwheel => 15

/-- The permissions in number order. -/
def perms : List Perm :=
  [.move .x, .move .y, .move .z, .move .w, .move .b, .spindleRun, .gearShift,
   .unclamp .x, .unclamp .y, .unclamp .z, .unclamp .w, .unclamp .b,
   .coolant .flood, .coolant .through, .coolant .air, .handwheel]

/-- The 20 tables of the catalogue (R175). -/
inductive TableId where
  | identity
  | link
  | axisParams (a : Axis)
  | pitch (a : Axis)
  | crossYW
  | crossZX
  | gear
  | coolant
  | inputs
  | outputs
  | interlock
  | pendant
deriving DecidableEq, Repr

/-- Catalogue order (R175). -/
def tableIds : List TableId :=
  [.identity, .link,
   .axisParams .x, .axisParams .y, .axisParams .z, .axisParams .w, .axisParams .b,
   .pitch .x, .pitch .y, .pitch .z, .pitch .w, .pitch .b,
   .crossYW, .crossZX, .gear, .coolant, .inputs, .outputs, .interlock, .pendant]

/-- One value for each table. -/
structure PerTable (α : Type) where
  identity : α
  link : α
  axisParams : PerAxis α
  pitch : PerAxis α
  crossYW : α
  crossZX : α
  gear : α
  coolant : α
  inputs : α
  outputs : α
  interlock : α
  pendant : α
deriving DecidableEq, Repr

def PerTable.get {α : Type} (p : PerTable α) : TableId → α
  | .identity => p.identity | .link => p.link
  | .axisParams a => p.axisParams.get a | .pitch a => p.pitch.get a
  | .crossYW => p.crossYW | .crossZX => p.crossZX | .gear => p.gear | .coolant => p.coolant
  | .inputs => p.inputs | .outputs => p.outputs | .interlock => p.interlock | .pendant => p.pendant

def PerTable.set {α : Type} (p : PerTable α) (id : TableId) (v : α) : PerTable α :=
  match id with
  | .identity => { p with identity := v } | .link => { p with link := v }
  | .axisParams a => { p with axisParams := p.axisParams.set a v }
  | .pitch a => { p with pitch := p.pitch.set a v }
  | .crossYW => { p with crossYW := v } | .crossZX => { p with crossZX := v }
  | .gear => { p with gear := v } | .coolant => { p with coolant := v }
  | .inputs => { p with inputs := v } | .outputs => { p with outputs := v }
  | .interlock => { p with interlock := v } | .pendant => { p with pendant := v }

def PerTable.all {α : Type} (v : α) : PerTable α := ⟨v, v, .all v, .all v, v, v, v, v, v, v, v, v⟩

/-! ## Free values and constants of one bridge -/

/-- The bridge unit number, fixed in each bridge (R167, R191). No value is known here (log 29). -/
opaque Config.unitNumber : BitVec 32

/-- The bridge revision, fixed in each bridge (R167). No value is known here (log 29). -/
opaque Config.revision : Byte

/-- A choice the spec leaves open between two orders, for the n-th such choice (log 7, 8). -/
opaque Config.freeBit : Nat → Bool

/-- The order of several blocks inside a step, for the n-th such choice: the block with the smallest key acts
first (log 7). -/
opaque Config.freeKey : Nat → Nat → Nat

/-- Whether DESCRIBE rounds a remaining time up when it is not a whole number of milliseconds (log 28). -/
opaque Config.remainingRoundsUp : Nat → Bool

/-- The offsets in its sector that a store phase had finished when its bound ran out on the timebase, for the n-th such
choice (log 30). -/
opaque Config.finishedOffsets : Nat → List Nat

/-- What programming leaves of a byte that is not erased, from the byte that stands there and the one programmed; the
spec states no result (R183, log 50). -/
opaque Config.programmedOver : Byte → Byte → Byte

/-- Whether the failing field of check 5 of R18 is the entry count; else it is the interval (log 44). -/
opaque Config.rotaryNamesCount : Bool

/-! ## Table contents -/

/-- Half of the position span (00_scope.md): all targets lie in ±2,147,000,000. -/
def span : Int := 2147000000

/-- Clamp configuration of an axis (R48, fields 12 to 15); the timeout is in ms. -/
structure ClampCfg where
  clamped : Fin 48
  unclamped : Fin 48
  timeout : Nat
deriving DecidableEq, Repr

/-- Axis parameter table (R48). B has no soft window; the span stands in its place. -/
structure AxisParams where
  vmax : Nat
  amax : Nat
  dmax : Nat
  vsetup : Nat
  errorLimit : Nat
  softMin : Int
  softMax : Int
  overlayLimit : Nat
  backlash : Nat
  ceiling : Nat
  slew : Nat
  clamp : Option ClampCfg
  posLimit : Option (Fin 48)
  negLimit : Option (Fin 48)
deriving DecidableEq, Repr

/-- Built-in default of an axis parameter table (R48, R20). -/
def AxisParams.default : AxisParams :=
  { vmax := 1, amax := 1, dmax := 1, vsetup := 1, errorLimit := 100, softMin := -span, softMax := span,
    overlayLimit := 0, backlash := 0, ceiling := 0, slew := 1000, clamp := none, posLimit := none,
    negLimit := none }

/-- Pitch and cross tables (R18, R19): origin, interval, entries. The default is empty (R20). -/
structure ErrorTable where
  x0 : Int
  interval : Nat
  entries : List Int
deriving DecidableEq, Repr

def ErrorTable.default : ErrorTable := ⟨0, 0, []⟩

/-- Range record of the gear table (R72, fields 1 to 8). -/
structure RangeRec where
  sensor : Fin 48
  wmin : Nat
  wmax : Nat
  num : Nat
  den : Nat
  creep : Nat
  outs : List (Fin 32)
deriving DecidableEq, Repr

/-- The four range records and the NEUTRAL sensor (R72, fields 1 to 9). -/
structure GearRanges where
  i : RangeRec
  ii : RangeRec
  iii : RangeRec
  iv : RangeRec
  neutral : Fin 48
deriving DecidableEq, Repr

def GearRanges.record (g : GearRanges) : Gear → Option RangeRec
  | .i => some g.i | .ii => some g.ii | .iii => some g.iii | .iv => some g.iv | .neutral => none

def GearRanges.sensor (g : GearRanges) : Gear → Fin 48
  | .i => g.i.sensor | .ii => g.ii.sensor | .iii => g.iii.sensor | .iv => g.iv.sensor | .neutral => g.neutral

/-- Gear table (R72); times are in ms. -/
structure GearTable where
  ranges : Option GearRanges
  motorMax : Nat
  stopThreshold : Nat
  stopTimeout : Nat
  meshTime : Nat
  creepHalf : Nat
  attemptTimeout : Nat
  maxAttempts : Nat
  confirmTime : Nat
  retryPause : Nat
deriving DecidableEq, Repr

/-- Built-in default of the gear table (R72): stop threshold 20, stop timeout 5 s, gear attempts 3. The other
fields act with ranges only and are never read without one (log 19). -/
def GearTable.default : GearTable :=
  { ranges := none, motorMax := 0, stopThreshold := 20, stopTimeout := 5000, meshTime := 0, creepHalf := 0,
    attemptTimeout := 0, maxAttempts := 3, confirmTime := 0, retryPause := 0 }

/-- Configuration of one coolant circuit (R91); times in ms. -/
structure CircuitCfg where
  enabled : Bool
  switch : Option (Fin 48)
  prime : Nat
  loss : Nat
deriving DecidableEq, Repr

/-- Coolant table (R91). -/
structure CoolantTable where
  circuit : PerCircuit CircuitCfg
  purge : Nat
  unionMin : Nat
  holdEnabled : Bool
  holdMask : PerAxis Bool
  tankLow : Option (Fin 48)
  pw0Base : Nat
  pw1Base : Nat
  throughDuty : List Nat
  floodDuty : List Nat
deriving DecidableEq, Repr

/-- Built-in default of the coolant table (R91). The prime timeouts, loss tolerances, purge time, union minimum speed and
hold mask, which R91 does not give, are 0 and empty (model's choice, log 19). -/
def CoolantTable.default : CoolantTable :=
  { circuit := .all ⟨false, none, 0, 0⟩, purge := 0, unionMin := 0, holdEnabled := false,
    holdMask := .all false, tankLow := none, pw0Base := 0, pw1Base := 0,
    throughDuty := List.replicate 16 0, floodDuty := List.replicate 16 0 }

/-- Event class of an input (R97). -/
inductive EventClass where
  | none | noticeActive | noticeBoth | urgentActive
deriving DecidableEq, Repr

/-- One input record of the inputs table (R111); debounce in ms. -/
structure InputCfg where
  inverted : Bool
  debounce : Nat
  cls : EventClass
deriving DecidableEq, Repr

structure InputsTable where
  keyswitch : Option (Fin 48)
  inputs : Vector InputCfg 48
deriving DecidableEq, Repr

/-- Built-in default of the inputs table (R111). -/
def InputsTable.default : InputsTable :=
  ⟨.none, Vector.replicate 48 ⟨false, 10, .none⟩⟩

/-- Owners of an output (R100). -/
inductive Owner where
  | general
  | clamp (a : Axis)
  | gearShift
  | floodPump
  | throughPump
  | airValve
deriving DecidableEq, Repr

/-- One output record of the outputs table (R112); `pulse` is mode PULSE, `length` in ms, `lossOff` is the link-loss
action OFF. -/
structure OutputCfg where
  owner : Owner
  pulse : Bool
  length : Nat
  lossOff : Bool
deriving DecidableEq, Repr

/-- Built-in default of the outputs table (R112). -/
def OutputCfg.default : OutputCfg := ⟨.general, false, 10, true⟩

/-- The condition that a term names by its kind and index (R106). -/
inductive Cond where
  | input (n : Fin 48)
  | keySetup
  | pendantEnabled
  | gearSettled
  | gearRange (g : Gear)
  | circuitRunning (c : Circuit)
  | axisClamped (a : Axis)
  | axisReferenced (a : Axis)
  | standstill
deriving DecidableEq, Repr

/-- A term of an interlock row (R106); `holds` is sense HOLDS. -/
structure Term where
  cond : Cond
  holds : Bool
deriving DecidableEq, Repr

/-- A row of the interlock table (R105, R113); `any` is mode ANY. -/
structure Row where
  target : Perm
  any : Bool
  terms : List Term
deriving DecidableEq, Repr

/-- Pendant table (R134); times in ms. -/
structure PendantTable where
  divisor : Nat
  threshold : Nat
  timeout : Nat
  display : Nat
deriving DecidableEq, Repr

def PendantTable.default : PendantTable := ⟨2, 24, 100, 1000⟩

/-- Link table (R156); the period in µs, the other times in ms. -/
structure LinkTable where
  period : Nat
  k : Nat
  missLimit : Nat
  passTimeout : Nat
  holdTime : Nat
deriving DecidableEq, Repr

def LinkTable.default : LinkTable := ⟨1000, 3, 3, 50, 1000⟩

/-- Identity table (R191). -/
structure IdentityTable where
  revision : Nat
  unit : Nat
  text : List Byte
deriving DecidableEq, Repr

def IdentityTable.default : IdentityTable := ⟨0, 0, []⟩

/-- The contents of the twenty active tables as the blocks read them. -/
structure Tables where
  identity : IdentityTable
  link : LinkTable
  axis : PerAxis AxisParams
  pitch : PerAxis ErrorTable
  crossYW : ErrorTable
  crossZX : ErrorTable
  gear : GearTable
  coolant : CoolantTable
  inputs : InputsTable
  outputs : Vector OutputCfg 32
  interlock : List Row
  pendant : PendantTable
deriving DecidableEq, Repr

/-- The built-in defaults of all tables (R176). -/
def Tables.default : Tables :=
  { identity := .default, link := .default, axis := .all .default, pitch := .all .default,
    crossYW := .default, crossZX := .default, gear := .default, coolant := .default, inputs := .default,
    outputs := Vector.replicate 32 .default, interlock := [], pendant := .default }

end Sys2Proof
end

