-- ==== Sys2Proof/Machine/State.lean ====
section
/-! DEFINITION. The state of the bridge, block by block, its value after a cold reset, and the reasons a step can
stop (none of the model's own). Positions, steps and compensation are exact integers (R7); sequences are bytes. -/

namespace Sys2Proof.Machine

/-- A timer: stopped, or running with its expiry in microseconds of the timebase. -/
abbrev Timer := Option Nat

/-- Travel direction, creep direction and limit-escape direction. -/
inductive Dir where
  | positive | negative
deriving DecidableEq, Repr

/-! ## Axis conditioners (R1, R22) -/

inductive Follower where
  | disabled | tracking | catchUp | holding | held
deriving DecidableEq, Repr

inductive ClampState where
  | free | clamping | clamped | unclamping | clampFault
deriving DecidableEq, Repr

/-- Fault reasons of an axis (R43, R44, R41). -/
inductive AxisReason where
  | followingError | driveFault | driveSilent | hardLimitPos | hardLimitNeg | clampTimeout
deriving DecidableEq, Repr

/-- The standing fault of an axis (R45); `code` is the drive's fault code, 0 unless the reason is DRIVE_FAULT. -/
structure AxisFault where
  reason : AxisReason
  stopComplete : Bool
  code : Byte
deriving DecidableEq, Repr

/-- The hold-reason set of an axis (R37). -/
structure Holds where
  interlock : Bool
  clamp : Bool
  coolantLoss : Bool
  feedHold : Bool
  pendantLost : Bool
  linkLost : Bool
  standby : Bool
  fault : Bool
deriving DecidableEq, Repr

def Holds.none : Holds := ⟨false, false, false, false, false, false, false, false⟩

/-- The values of an axis slot that the conditioner keeps (R23 step 1). -/
structure AxisSlot where
  setpoint : Int
  driveEnable : Bool
  clampRequest : Bool
  referenced : Bool
deriving DecidableEq, Repr

/-- The published pair of X or W (R9). -/
structure Published where
  f : Int
  referenced : Bool
deriving DecidableEq, Repr

/-- One axis record: compensation half (R1) and motion half (R22). -/
structure AxisRec where
  dir : Dir
  comp : Int
  uncompensated : Bool
  sent : List (Byte × Int)
  corrected : Int
  follower : Follower
  f : Int
  s : Int
  t : Int
  w : Int
  holds : Holds
  clamp : ClampState
  clampOut : Bool
  clampTimer : Timer
  referenced : Bool
  overlay : Int
  pendingInc : Int
  fault : Option AxisFault
  driveFaultMem : Bool
  escape : Option Dir
  windowClamp : Bool
  absorbRefused : Bool
  /-- Slot values last taken (R23 step 1). -/
  slot : AxisSlot
  /-- The drive enable was forwarded in the most recent drive frame (R38). -/
  enableFwd : Bool
  /-- The drive demand d of the most recent drive frame, as its part was formed (R2 step 7, R13; log 55). -/
  demand : Int
  /-- The clamp configuration of the axis table copy that the part of the most recent drive frame used (R17, R39;
  log 56). -/
  frameClamp : Option ClampCfg
  /-- The CATCH_UP rule brought f to t′, so the state becomes TRACKING from the next frame (R33). -/
  arrived : Bool
  /-- A drive return has been corrected since the last reset (R38). -/
  returned : Bool
  /-- A return of the open window carried a sequence without an entry (R15). -/
  uncorrected : Bool
  /-- Stale flag and feedback as the most recent window close left them (R150, R153). -/
  stale : Bool
  feedback : Int
deriving DecidableEq, Repr

/-- Reset values of R21 and R50. -/
def AxisRec.reset : AxisRec :=
  { dir := .positive, comp := 0, uncompensated := true, sent := [], corrected := 0, follower := .disabled,
    f := 0, s := 0, t := 0, w := 0, holds := .none, clamp := .free, clampOut := false, clampTimer := none,
    referenced := false, overlay := 0, pendingInc := 0, fault := none, driveFaultMem := false, escape := none,
    windowClamp := false, absorbRefused := false, slot := ⟨0, false, false, false⟩, enableFwd := false,
    demand := 0, frameClamp := none, arrived := false, returned := false, uncorrected := false, stale := false,
    feedback := 0 }

/-! ## Spindle Gear Unit (R51) -/

inductive Shift where
  | settled | awaitPermit | stopping | shifting | creeping | confirming | retryPause | failed | unknown
deriving DecidableEq, Repr

inductive ShiftFailure where
  | notStopped | noMesh | sensorConflict
deriving DecidableEq, Repr

inductive SpindleReason where
  | driveFault | driveSilent | gearLost
deriving DecidableEq, Repr

structure SpindleFault where
  reason : SpindleReason
  code : Byte
deriving DecidableEq, Repr

/-- The values of the spindle slot that the SGU keeps (R52 step 1); `ccw` is direction CCW. -/
structure SpindleSlot where
  speed : Nat
  ccw : Bool
  enable : Bool
deriving DecidableEq, Repr

structure Sgu where
  current : Option Gear
  shift : Shift
  purgeWait : Bool
  target : Option Gear
  pendingTarget : Option Gear
  attempts : Nat
  lastFailure : Option ShiftFailure
  meshElapsed : Bool
  attemptSpent : Bool
  creepDir : Dir
  stopTimer : Timer
  meshTimer : Timer
  attemptTimer : Timer
  creepTimer : Timer
  confirmTimer : Timer
  retryTimer : Timer
  sensorTimer : Timer
  lastRequest : Nat
  demand : Int
  enableFwd : Bool
  actual : Int
  /-- The stale mark (R51): set as a window closes without the station, cleared as its return is taken (R56). -/
  stale : Bool
  /-- The stale mark as the most recent window close left it, which every echo shows (R150, R152, R153; log 53). -/
  closedStale : Bool
  driveFaultMem : Bool
  fault : Option SpindleFault
  stopping : Bool
  speedLimited : Bool
  slot : SpindleSlot
  /-- A station 6 return has been taken since the last reset (R55). -/
  returned : Bool
deriving DecidableEq, Repr

/-- Cold-reset values of R74. -/
def Sgu.reset : Sgu :=
  { current := none, shift := .unknown, purgeWait := false, target := none, pendingTarget := none,
    attempts := 0, lastFailure := none, meshElapsed := false, attemptSpent := false, creepDir := .positive,
    stopTimer := none, meshTimer := none, attemptTimer := none, creepTimer := none, confirmTimer := none,
    retryTimer := none, sensorTimer := none, lastRequest := 0, demand := 0, enableFwd := false, actual := 0,
    stale := false, closedStale := false, driveFaultMem := false, fault := none, stopping := false,
    speedLimited := false, slot := ⟨0, false, false⟩, returned := false }

/-! ## Coolant Unit (R75, R89) -/

inductive CircuitState where
  | off | priming | running | purging | faulted
deriving DecidableEq, Repr

inductive CircuitFault where
  | noPressure | pressureLost
deriving DecidableEq, Repr

/-- A circuit record (R75). FLOOD and AIR never start the purge timer; AIR's level stays 0. -/
structure CircuitRec where
  state : CircuitState
  request : Bool
  level : Nat
  primeTimer : Timer
  lossTimer : Timer
  purgeTimer : Timer
  fault : Option CircuitFault
deriving DecidableEq, Repr

def CircuitRec.reset : CircuitRec := ⟨.off, false, 0, none, none, none, none⟩

structure PwPair where
  base : Nat
  duty : Nat
deriving DecidableEq, Repr

/-- A pulse-width channel (R89): the pair in effect, the staged pair and the level of its output. -/
structure Pw where
  eff : PwPair
  staged : PwPair
  high : Bool
deriving DecidableEq, Repr

structure Clu where
  circuit : PerCircuit CircuitRec
  lossHold : Bool
  pw0 : Pw
  pw1 : Pw
deriving DecidableEq, Repr

/-- Reset values of R94 under the default coolant table. -/
def Clu.reset : Clu :=
  { circuit := .all .reset, lossHold := false, pw0 := ⟨⟨0, 0⟩, ⟨0, 0⟩, false⟩, pw1 := ⟨⟨0, 0⟩, ⟨0, 0⟩, false⟩ }

/-! ## Input/Output Unit (R95, R100) and Interlock Evaluator (R105) -/

structure InputRec where
  raw : Bool
  active : Bool
  timer : Timer
deriving DecidableEq, Repr

structure OutputRec where
  on : Bool
  timer : Timer
deriving DecidableEq, Repr

structure Iou where
  inputs : Vector InputRec 48
  outputs : Vector OutputRec 32
deriving DecidableEq, Repr

/-- R99 and R104 under the default tables; raw levels low (log 3). -/
def Iou.reset : Iou := ⟨Vector.replicate 48 ⟨false, false, none⟩, Vector.replicate 32 ⟨false, none⟩⟩

/-- The permission set (R105); true is granted. -/
structure PermSet where
  move : PerAxis Bool
  spindleRun : Bool
  gearShift : Bool
  unclamp : PerAxis Bool
  coolant : PerCircuit Bool
  handwheel : Bool
deriving DecidableEq, Repr

def PermSet.get (p : PermSet) : Perm → Bool
  | .move a => p.move.get a
  | .spindleRun => p.spindleRun
  | .gearShift => p.gearShift
  | .unclamp a => p.unclamp.get a
  | .coolant c => p.coolant.get c
  | .handwheel => p.handwheel

def PermSet.all (v : Bool) : PermSet := ⟨.all v, v, v, .all v, .all v, v⟩

/-! ## Pendant Unit (R117, R123, R131) -/

/-- A stored byte with its marks (R118). `afterOut`: it was stored after the out mark of the mailbox was set
(R133). -/
structure RxByte where
  data : Byte
  parity : Bool
  framing : Bool
  brk : Bool
  overrun : Bool
  afterOut : Bool
deriving DecidableEq, Repr

inductive DecState where
  | hunt | length | body | check
deriving DecidableEq, Repr

/-- The decoder (R121); the byte count is the number of body bytes kept. -/
structure Decoder where
  state : DecState
  length : Byte
  body : List Byte
deriving DecidableEq, Repr

inductive Discard where
  | marked | length | check | kind | field
deriving DecidableEq, Repr

inductive Increment where
  | x1 | x10 | x100 | x1000
deriving DecidableEq, Repr

inductive MailState where
  | free | filled | sent
deriving DecidableEq, Repr

structure Mailbox where
  state : MailState
  text : List Byte
  seq : Byte
  compose : List Byte
  counter : Byte
  timer : Timer
  out : Bool
deriving DecidableEq, Repr

structure Pdu where
  restarting : Bool
  divisor : Nat
  rtsThreshold : Nat
  rx : List RxByte
  overrun : Bool
  rts : Bool
  tx : List Byte
  sending : Bool
  cts : Bool
  ledsPending : Bool
  drainTimer : Timer
  decodeAt : Nat
  decoder : Decoder
  live : Bool
  pendantTimer : Timer
  enable : Bool
  lost : Bool
  axisSel : Option Axis
  incSel : Increment
  override : Nat
  keys : BitVec 24
  base : U16
  lastSeq : Option Byte
  discards : U16
  lastCause : Option Discard
  feedHold : Bool
  spindleStop : Bool
  coolantStop : Bool
  ledImage : BitVec 8
  ledsCount : Byte
  mailbox : Mailbox
  /-- Bytes of the transmit FIFO up to and with the check byte of the last DISPLAY message placed (R132). -/
  outLeft : Option Nat
deriving DecidableEq, Repr

/-- Reset values of R137 under the default pendant table; CTS deasserted (log 6). -/
def Pdu.reset : Pdu :=
  { restarting := false, divisor := 2, rtsThreshold := 24, rx := [], overrun := false, rts := true, tx := [],
    sending := false, cts := false, ledsPending := true, drainTimer := none, decodeAt := 2000,
    decoder := ⟨.hunt, 0, []⟩, live := false, pendantTimer := none, enable := false, lost := false,
    axisSel := none, incSel := .x1, override := 0, keys := 0, base := 0, lastSeq := none, discards := 0,
    lastCause := none, feedHold := false, spindleStop := false, coolantStop := false, ledImage := 0,
    ledsCount := 0, mailbox := ⟨.free, [], 0, [], 0, none, false⟩, outLeft := none }

/-! ## Events (R193, R194) -/

inductive Source where
  | axis (a : Axis)
  | spindle
  | circuit (c : Circuit)
  | pendant
  | input (n : Fin 48)
  | table (id : Byte)
  | link
deriving DecidableEq, Repr

/-- Urgent codes (R200), then notice codes (R201). -/
inductive Code where
  | axisFault | spindleFault | gearLost | gearShiftFailed | coolantFault | inputUrgent | pendantLostEnabled
  | linkLost | tableAbsent
  | secondFault | softLimit | stepLimited | handwheelLimit | shiftWaiting | gearSettled | shiftCancelled
  | coolantStopped | inputEdge | outputOwned | pulseRefused | key | displayUnacked | storeDone | storeFailed
  | serviceDiscarded
deriving DecidableEq, Repr

structure EventRec where
  code : Code
  source : Source
  detail : Nat
  seq : Option Byte
deriving DecidableEq, Repr

structure Evu where
  urgent : List EventRec
  notices : List EventRec
  urgentOverflow : Bool
  noticeOverflow : Bool
deriving DecidableEq, Repr

def Evu.reset : Evu := ⟨[], [], false, false⟩

/-! ## Service Responder (R159) -/

inductive Phase where
  | none | awaitingFrame | outstanding
deriving DecidableEq, Repr

/-- A pass-through record (R159); `segment` waits for a drive frame in AWAITING_FRAME (R161). -/
structure PassRec where
  phase : Phase
  tag : Byte
  length : Nat
  timer : Timer
  segment : List Byte
deriving DecidableEq, Repr

def PassRec.reset : PassRec := ⟨.none, 0, 0, none, []⟩

structure DriveReply where
  station : Station
  tag : Byte
  status : Byte
  result : List Byte
  driveStatus : Bool
deriving DecidableEq, Repr

/-- The pending bridge reply with the sequence of the command frame it answers (R160). -/
structure BridgeReply where
  seq : Byte
  tag : Byte
  station : Byte
  status : Byte
  result : List Byte
deriving DecidableEq, Repr

structure Svr where
  pass : PerStation PassRec
  queue : List DriveReply
  reply : Option BridgeReply
  broadcast : Option (List Byte)
deriving DecidableEq, Repr

/-- Reset values of R174. -/
def Svr.reset : Svr := ⟨.all .reset, [], none, none⟩

/-! ## Table Manager (R175, R178, R184) -/

inductive Status where
  | valid | default | absent
deriving DecidableEq, Repr

inductive StoredState where
  | blank | valid | invalid | writing
deriving DecidableEq, Repr

structure CatEntry where
  status : Status
  /-- The active image under VALID, empty otherwise (R175). -/
  image : List Byte
  protect : Bool
  freeze : Bool
  stored : StoredState
  header : Option (List Byte)
  running : Bool
deriving DecidableEq, Repr

/-- Cold-reset values of R192; the stored-copy state is set by the load (log 34). -/
def CatEntry.reset : CatEntry := ⟨.default, [], false, false, .blank, none, false⟩

inductive StageState where
  | empty | filling | checked
deriving DecidableEq, Repr

/-- The staging buffer (R178); `bytes` lists the bytes that are not 0. -/
structure Staging where
  state : StageState
  owner : Option TableId
  fill : Nat
  bytes : List Host.Cell
deriving DecidableEq, Repr

def Staging.reset : Staging := ⟨.empty, none, 0, []⟩

inductive JobKind where
  | table | protection | freeze
deriving DecidableEq, Repr

inductive JobPhase where
  | erase | program | verify
deriving DecidableEq, Repr

/-- A store job (R184): the bytes that the program phase writes from the first byte of the sector, and the bound
of the phase in progress (R185). A freeze job programs one byte of sector 47 (R188). -/
structure Job where
  kind : JobKind
  table : TableId
  phase : JobPhase
  image : List Byte
  bound : Timer
deriving DecidableEq, Repr

/-- The TBM: catalogue, staging buffer, store job, and the table store of R183 (an unlisted byte reads 0xFF). -/
structure Tbm where
  cat : PerTable CatEntry
  staging : Staging
  job : Option Job
  store : List Host.Cell
deriving DecidableEq, Repr

def Tbm.reset : Tbm := ⟨.all .reset, .reset, none, []⟩

/-! ## Frame Switch (R138) -/

inductive BridgeState where
  | reset | loading | standby | running | linkLost
deriving DecidableEq, Repr

structure StationRec where
  miss : Nat
  seen : Bool
  silent : Bool
deriving DecidableEq, Repr

/-- Status of an axis as a drive frame left it, for the echo (R36, R4, R152). -/
structure AxisStatus where
  overlay : Int
  w : Int
  follower : Follower
  holds : Holds
  clamp : ClampState
  referenced : Bool
  uncompensated : Bool
  absorbRefused : Bool
  fault : Option AxisReason
  escape : Option Dir
deriving DecidableEq, Repr

/-- Spindle status for the echo (R56), without the stale mark, which `Sgu.closedStale` gives. -/
structure SpindleStatus where
  speed : Int
  actual : Int
  current : Option Gear
  shift : Shift
  pendingTarget : Option Gear
  speedLimited : Bool
deriving DecidableEq, Repr

/-- Pendant summary for the echo (R136). -/
structure PendantSummary where
  live : Bool
  enable : Bool
  axisSel : Option Axis
  incSel : Increment
  override : Nat
  feedHold : Bool
  spindleStop : Bool
  coolantStop : Bool
deriving DecidableEq, Repr

/-- The parts of an echo frame that show the state at the formation of its drive frame (R152). -/
structure EchoStatus where
  bridge : BridgeState
  gap : Bool
  axis : PerAxis AxisStatus
  spindle : SpindleStatus
  circuit : PerCircuit CircuitState
  inputs : Vector Bool 48
  perms : PermSet
  pendant : PendantSummary
deriving DecidableEq, Repr

/-- An open return window (R138); `echo` is present for the cycle of a command frame. -/
structure Window where
  seq : Byte
  taken : PerStation Bool
  echo : Option EchoStatus
deriving DecidableEq, Repr

/-- The link counters (R158). -/
structure Counters where
  accepted : U16
  check : U16
  malformed : U16
  duplicates : U16
  refused : U16
  gaps : U16
  losses : U16
  discarded : U16
deriving DecidableEq, Repr

def Counters.zero : Counters := ⟨0, 0, 0, 0, 0, 0, 0, 0⟩

/-- A RESTART that has been answered OK: waiting for the echo of its sequence, or due (R172, R140). -/
inductive Restart where
  | none
  | requested (seq : Byte)
  | due
deriving DecidableEq, Repr

/-- What has left a port: the most recent frame, and how many frames have been sent. -/
structure Port where
  last : Option (List Byte)
  count : Nat
deriving DecidableEq, Repr

structure Fsw where
  state : BridgeState
  lastSeq : Option Byte
  linkTimer : Timer
  periodTimer : Timer
  windowTimer : Timer
  restTimer : Timer
  ownSeq : Byte
  window : Option Window
  stations : PerStation StationRec
  runRelease : Bool
  gapMark : Bool
  counters : Counters
  restart : Restart
  cPort : Port
  dPort : Port
deriving DecidableEq, Repr

/-- Cold-reset values of R139. -/
def Fsw.reset : Fsw :=
  { state := .reset, lastSeq := none, linkTimer := none, periodTimer := none, windowTimer := none,
    restTimer := none, ownSeq := 255, window := none, stations := .all ⟨0, false, false⟩, runRelease := false,
    gapMark := false, counters := .zero, restart := .none, cPort := ⟨none, 0⟩, dPort := ⟨none, 0⟩ }

/-! ## The whole bridge -/

structure State where
  /-- Commands that wait, the next one first. -/
  pending : List Instr
  /-- The timebase in microseconds. -/
  now : Nat
  /-- How many free choices have been taken. -/
  free : Nat
  fsw : Fsw
  axes : PerAxis AxisRec
  pubX : Published
  pubW : Published
  sgu : Sgu
  clu : Clu
  iou : Iou
  perms : PermSet
  pdu : Pdu
  svr : Svr
  tbm : Tbm
  cfg : Tables
  evu : Evu
deriving DecidableEq, Repr

/-- The bridge right after a cold reset, in RESET (R139), with a table store that has never been programmed
(log 4). -/
def State.reset : State :=
  { pending := [], now := 0, free := 0, fsw := .reset, axes := .all .reset, pubX := ⟨0, false⟩,
    pubW := ⟨0, false⟩, sgu := .reset, clu := .reset, iou := .reset, perms := .all true, pdu := .reset,
    svr := .reset, tbm := .reset, cfg := .default, evu := .reset }

/-- Faults: no command stops the bridge with a fault (log 40). -/
inductive Fault where
deriving DecidableEq, Repr

/-- Refusals. -/
inductive Refusal where
  /-- Raised by `exec` alone, for a command without a meaning; no command is left without one. Safe. -/
  | notModelled (mnemonic : String)
deriving DecidableEq, Repr

end Sys2Proof.Machine
end

