-- ==== Sys2Proof/Machine/Ops.lean ====
section
/-! DEFINITION. The named operations that every block uses: byte memory, timers, free choices, the block records,
and raising an event. -/

namespace Sys2Proof.Machine

/-! ## Byte memory: a sorted list of cells; an unlisted address reads `d` -/

def memRead (d : Byte) : List Host.Cell → Nat → Byte
  | [], _ => d
  | (k, v) :: m, a => if k = a then v else memRead d m a

def memWrite (d : Byte) : List Host.Cell → Nat → Byte → List Host.Cell
  | [], a, v => if v = d then [] else [(a, v)]
  | (k, u) :: m, a, v =>
    if k < a then (k, u) :: memWrite d m a v
    else if k = a then (if v = d then m else (a, v) :: m)
    else if v = d then (k, u) :: m else (a, v) :: (k, u) :: m

/-- Consecutive bytes from address `a`. -/
def memWriteList (d : Byte) (m : List Host.Cell) (a : Nat) : List Byte → List Host.Cell
  | [] => m
  | v :: vs => memWriteList d (memWrite d m a v) (a + 1) vs

/-- Single cells, each at its offset from `a`. -/
def memWriteCells (d : Byte) (m : List Host.Cell) (a : Nat) : List Host.Cell → List Host.Cell
  | [] => m
  | (k, v) :: cs => memWriteCells d (memWrite d m (a + k) v) a cs

/-- Sets `n` bytes from address `a` to the unlisted value (an erase, R183). -/
def memClear (m : List Host.Cell) (a n : Nat) : List Host.Cell :=
  m.filter fun c => decide (c.1 < a) || decide (a + n ≤ c.1)

def memReadList (d : Byte) (m : List Host.Cell) (a n : Nat) : List Byte :=
  let part := m.filter fun c => decide (a ≤ c.1) && decide (c.1 < a + n)
  (List.range n).map fun i => memRead d part (a + i)

/-- The canonical form: addresses strictly rising, every one at least `lo`, and no cell holds the unlisted value. -/
def memWfFrom (d : Byte) (lo : Nat) : List Host.Cell → Bool
  | [] => true
  | (k, v) :: m => decide (lo ≤ k) && decide (v ≠ d) && memWfFrom d (k + 1) m

def memWf (d : Byte) (m : List Host.Cell) : Bool := memWfFrom d 0 m

/-- The erased value of the table store (R183). -/
def erased : Byte := 0xFF#8

/-! ## Timers -/

/-- A timer started now with a length in microseconds. -/
def State.startUs (s : State) (us : Nat) : Timer := some (s.now + us)

/-- A timer started now with a length in milliseconds. -/
def State.startMs (s : State) (ms : Nat) : Timer := some (s.now + 1000 * ms)

/-- The expiry of a timer is taken: nothing happens if it is stopped; otherwise the timebase has reached the
expiry and `act` follows (log 2). -/
def onExpiry (t : Timer) (act : State → State) (s : State) : State :=
  match t with
  | none => s
  | some e => act { s with now := max s.now e }

/-! ## Block records -/

def State.axis (s : State) (a : Axis) : AxisRec := s.axes.get a

def State.modAxis (s : State) (a : Axis) (g : AxisRec → AxisRec) : State :=
  { s with axes := s.axes.set a (g (s.axes.get a)) }

/-- The same change on all five axis records. -/
def State.modAxes (s : State) (g : AxisRec → AxisRec) : State :=
  { s with axes := ⟨g s.axes.x, g s.axes.y, g s.axes.z, g s.axes.w, g s.axes.b⟩ }

def State.modHolds (s : State) (a : Axis) (g : Holds → Holds) : State :=
  s.modAxis a fun r => { r with holds := g r.holds }

def State.modSgu (s : State) (g : Sgu → Sgu) : State := { s with sgu := g s.sgu }

def State.modClu (s : State) (g : Clu → Clu) : State := { s with clu := g s.clu }

def State.modPdu (s : State) (g : Pdu → Pdu) : State := { s with pdu := g s.pdu }

def State.modSvr (s : State) (g : Svr → Svr) : State := { s with svr := g s.svr }

def State.modTbm (s : State) (g : Tbm → Tbm) : State := { s with tbm := g s.tbm }

def State.modFsw (s : State) (g : Fsw → Fsw) : State := { s with fsw := g s.fsw }

def State.modMail (s : State) (g : Mailbox → Mailbox) : State :=
  s.modPdu fun p => { p with mailbox := g p.mailbox }

def State.modCounters (s : State) (g : Counters → Counters) : State :=
  s.modFsw fun f => { f with counters := g f.counters }

def State.modStation (s : State) (st : Station) (g : StationRec → StationRec) : State :=
  s.modFsw fun f => { f with stations := f.stations.set st (g (f.stations.get st)) }

def State.modPass (s : State) (st : Station) (g : PassRec → PassRec) : State :=
  s.modSvr fun v => { v with pass := v.pass.set st (g (v.pass.get st)) }

def State.entry (s : State) (id : TableId) : CatEntry := s.tbm.cat.get id

def State.modEntry (s : State) (id : TableId) (g : CatEntry → CatEntry) : State :=
  s.modTbm fun t => { t with cat := t.cat.set id (g (t.cat.get id)) }

def State.isValid (s : State) (id : TableId) : Bool := decide ((s.entry id).status = .valid)

/-- The conditioned state of an input (R95). -/
def State.input (s : State) (n : Fin 48) : Bool := (s.iou.inputs[n]).active

/-- The conditioned state of a designated input; an input that is not designated is not active. -/
def State.inputOpt (s : State) (n : Option (Fin 48)) : Bool :=
  match n with
  | none => false
  | some n => s.input n

def State.setInput (s : State) (n : Fin 48) (r : InputRec) : State :=
  { s with iou := { s.iou with inputs := s.iou.inputs.set n r } }

def State.setOutput (s : State) (n : Fin 32) (r : OutputRec) : State :=
  { s with iou := { s.iou with outputs := s.iou.outputs.set n r } }

/-! ## Free choices (log 7, 8) -/

/-- The next free bit decides between two states. -/
def freeChoice (yes no : State → State) (s : State) : State :=
  if Config.freeBit s.free then yes { s with free := s.free + 1 } else no { s with free := s.free + 1 }

def insertKeyed {α : Type} (p : Nat × α) : List (Nat × α) → List (Nat × α)
  | [] => [p]
  | q :: l => if p.1 ≤ q.1 then p :: q :: l else q :: insertKeyed p l

/-- The items in the order of the n-th free keys. -/
def permute {α : Type} (n : Nat) (l : List α) : List α :=
  ((l.zipIdx.map fun p => (Config.freeKey n p.2, p.1)).foldr insertKeyed []).map Prod.snd

/-- One after the other. -/
def runAll (items : List (State → State)) (s : State) : State := items.foldl (fun s g => g s) s

/-- Actions of different blocks between which the spec sets no order: if the listed order and its reverse agree,
that result; otherwise an order that is free (log 7). -/
def anyOrder (items : List (State → State)) (s : State) : State :=
  let there := runAll items s
  if there = runAll items.reverse s then there
  else runAll (permute s.free items) { s with free := s.free + 1 }

/-! ## Raising an event (R194) -/

/-- The class of a code (R200, R201). -/
def Code.urgent : Code → Bool
  | .axisFault | .spindleFault | .gearLost | .gearShiftFailed | .coolantFault | .inputUrgent
  | .pendantLostEnabled | .linkLost | .tableAbsent => true
  | _ => false

/-- Same code and source (R193). -/
def EventRec.dup (e g : EventRec) : Bool := decide (e.code = g.code) && decide (e.source = g.source)

/-- A record is taken into a list of capacity `cap` with its overflow flag, by the tests of R194. -/
def takeEvent (cap : Nat) (l : List EventRec) (flag : Bool) (e : EventRec) : List EventRec × Bool :=
  if l.any (e.dup ·) then (l, flag)
  else if l.length < cap then (l ++ [e], flag)
  else (l, true)

def Evu.take (v : Evu) (e : EventRec) : Evu :=
  if e.code.urgent then
    let r := takeEvent 8 v.urgent v.urgentOverflow e
    { v with urgent := r.1, urgentOverflow := r.2 }
  else
    let r := takeEvent 24 v.notices v.noticeOverflow e
    { v with notices := r.1, noticeOverflow := r.2 }

/-- A block raises an event; the record carries the last accepted sequence (R193). -/
def raise (c : Code) (src : Source) (detail : Nat) (s : State) : State :=
  { s with evu := s.evu.take ⟨c, src, detail, s.fsw.lastSeq⟩ }

end Sys2Proof.Machine
end

