-- ==== Sys2Proof/Machine/Compensation.lean ====
section
/-! DEFINITION. The compensation half of an axis record (chapter 1): pitch, cross and backlash terms, ceiling and
slew, the sent-compensation list and the correction of returns. -/

namespace Sys2Proof.Machine

/-- The travel direction after a step (R3). -/
def dirAfter (d : Dir) (s : Int) : Dir := if s < 0 then .negative else if 0 < s then .positive else d

/-- Entry e[i] of a table (R5). -/
def tableEntry (e : ErrorTable) (i : Nat) : Int := e.entries.getD i 0

/-- Interpolation on a linear table (R5); end values hold outside it. -/
def interpLinear (e : ErrorTable) (x : Int) : Int :=
  let u := x - e.x0
  let last := e.entries.length - 1
  if u ≤ 0 then tableEntry e 0
  else if (last * e.interval : Nat) ≤ u then tableEntry e last
  else
    let i := u.toNat / e.interval
    let r := u.toNat - i * e.interval
    tableEntry e i + roundDiv ((tableEntry e (i + 1) - tableEntry e i) * r) e.interval

/-- One revolution of B in position units (00_scope.md, Units). -/
def revolution : Nat := 3600000

/-- Periodic interpolation for the rotary axis B (R6). -/
def interpRotary (e : ErrorTable) (x : Int) : Int :=
  let u := ((x - e.x0) % revolution).toNat
  let i := u / e.interval
  let r := u - i * e.interval
  let j := (i + 1) % e.entries.length
  tableEntry e i + roundDiv ((tableEntry e j - tableEntry e i) * r) e.interval

/-- The pitch term is withheld (R4): the axis is not referenced or its pitch table is not VALID. -/
def pitchWithheld (s : State) (a : Axis) : Bool := !(s.axis a).referenced || !s.isValid (.pitch a)

/-- Ep at the new f (R4 to R6). -/
def pitchTerm (s : State) (a : Axis) (f : Int) : Int :=
  if pitchWithheld s a then 0
  else if a.linear then interpLinear (s.cfg.pitch.get a) f
  else interpRotary (s.cfg.pitch.get a) f

/-- Ex (R8): Y from W's published pair, Z from X's, 0 for the other axes. -/
def crossTerm (s : State) (a : Axis) : Int :=
  match a with
  | .y => if (s.axis .y).referenced && s.pubW.referenced && s.isValid .crossYW
          then interpLinear s.cfg.crossYW s.pubW.f else 0
  | .z => if (s.axis .z).referenced && s.pubX.referenced && s.isValid .crossZX
          then interpLinear s.cfg.crossZX s.pubX.f else 0
  | .x | .w | .b => 0

/-- Bl (R10). -/
def backlashTerm (d : Dir) (backlash : Nat) : Int :=
  match d with
  | .positive => 0
  | .negative => -backlash

/-- The limited target (R11). -/
def compTarget (ep ex bl : Int) (ceiling : Nat) : Int := clampInt (ep + ex + bl) (-ceiling) ceiling

/-- C moves towards the limited target by at most the slew (R12). -/
def slewComp (c target : Int) (slew : Nat) : Int := c + clampInt (target - c) (-slew) slew

/-- The sent-compensation list takes the entry of a drive frame (R14): an entry with the same sequence goes, then
the oldest if four remain. -/
def pushSent (l : List (Byte × Int)) (q : Byte) (c : Int) : List (Byte × Int) :=
  let kept := l.filter fun e => decide (e.1 ≠ q)
  (if kept.length ≥ 4 then kept.drop 1 else kept) ++ [(q, c)]

/-- C_sent of a return's sequence (R15). -/
def sentComp (l : List (Byte × Int)) (q : Byte) : Option Int := (l.find? fun e => decide (e.1 = q)).map Prod.snd

/-- The drive demand d = f + C (R13). -/
def axisDemand (f c : Int) : Int := f + c

/-- The compensation half for a drive frame of sequence `q`, after the motion half (R2). The demand is that of this
part, whatever a table activation of the same acceptance then does to C (R17, R165). -/
def compensate (a : Axis) (q : Byte) (s : State) : State :=
  let r := s.axis a
  let p := s.cfg.axis.get a
  let dir := dirAfter r.dir r.s
  let target := compTarget (pitchTerm s a r.f) (crossTerm s a) (backlashTerm dir p.backlash) p.ceiling
  let c := slewComp r.comp target p.slew
  s.modAxis a fun r =>
    { r with
      dir := dir, comp := c, uncompensated := pitchWithheld s a, sent := pushSent r.sent q c
      demand := axisDemand r.f c }

/-- The feedback for the echo (R16). -/
def axisFeedback (r : AxisRec) : Int := sat32 (r.corrected - r.overlay)

end Sys2Proof.Machine
end

