-- ==== Sys2Proof/Machine/AxisFaults.lean ====
section
/-! DEFINITION. Clamps, axis faults, limit escape and their clearing (sections 2.7 and 2.8), and drive returns at an
axis conditioner (R15, R43). -/

namespace Sys2Proof.Machine

/-- Fault reason numbers (R200). -/
def AxisReason.number : AxisReason → Nat
  | .followingError => 1 | .driveFault => 2 | .driveSilent => 3
  | .hardLimitPos => 4 | .hardLimitNeg => 5 | .clampTimeout => 6

/-! ## Clamps -/

/-- The clamp request that stands; on an axis with no clamp configured it is taken as absent (R39). -/
def clampRequested (s : State) (a : Axis) : Bool :=
  (s.cfg.axis.get a).clamp.isSome && (s.axis a).slot.clampRequest

/-- The CLAMP hold stands while the clamp state is not FREE or a clamp request stands (R37). -/
def setClampHold (a : Axis) (s : State) : State :=
  let due := decide ((s.axis a).clamp ≠ .free) || clampRequested s a
  s.modHolds a fun h => { h with clamp := due }

def clampTimeout (s : State) (a : Axis) : Nat :=
  match (s.cfg.axis.get a).clamp with
  | none => 0
  | some c => c.timeout

/-- Clamping begins under the clamp configuration `c` (R39). -/
def beginClamping (a : Axis) (c : ClampCfg) (s : State) : State :=
  s.modAxis a fun r => { r with clamp := .clamping, clampOut := true, clampTimer := s.startMs c.timeout }

/-- Unclamping begins (R40). -/
def beginUnclamping (a : Axis) (s : State) : State :=
  s.modAxis a fun r =>
    { r with clamp := .unclamping, clampOut := false, clampTimer := s.startMs (clampTimeout s a) }

/-- The clamp configuration by which the drive frame in hand begins clamping: that of the table copy its part used, also
where a request of the same frame has activated another since (R17). Once the active copy configures no clamp there is
none, since such an axis is FREE at all times (R39 against R17: model's choice, log 56). -/
def clampOfFrame (s : State) (a : Axis) : Option ClampCfg :=
  if (s.cfg.axis.get a).clamp.isSome then (s.axis a).frameClamp else none

/-- In FREE a clamp request begins clamping when the follower is in the state named (R39); without a clamp configured the
request is taken as absent. -/
def clampIfRequested (a : Axis) (st : Follower) (s : State) : State :=
  match clampOfFrame s a with
  | none => s
  | some c =>
    if (s.axis a).clamp = .free ∧ (s.axis a).follower = st ∧ (s.axis a).slot.clampRequest then beginClamping a c s
    else s

/-- In CLAMPED with the request withdrawn and UNCLAMP_a granted, unclamping begins (R40). -/
def unclampIfPermitted (a : Axis) (s : State) : State :=
  if (s.axis a).clamp = .clamped ∧ clampRequested s a = false ∧ s.perms.unclamp.get a then beginUnclamping a s
  else s

/-- CLAMP_FAULT is left when no fault record stands and the confirm inputs show a clear position (R41). -/
def resolveClampFault (a : Axis) (s : State) : State :=
  let r := s.axis a
  match (s.cfg.axis.get a).clamp with
  | none => s
  | some c =>
    if r.clamp = .clampFault ∧ r.fault = none then
      if s.input c.clamped && !s.input c.unclamped then
        setClampHold a (s.modAxis a fun r => { r with clamp := .clamped, clampOut := true })
      else if s.input c.unclamped && !s.input c.clamped then
        setClampHold a (s.modAxis a fun r => { r with clamp := .free, clampOut := false })
      else s
    else s

/-- The clamped-confirm input has changed (R39, R41). -/
def clampedConfirmChange (a : Axis) (active : Bool) (s : State) : State :=
  match (s.axis a).clamp with
  | .clamping =>
    if active then s.modAxis a fun r => { r with clamp := .clamped, clampTimer := none } else s
  | .clamped =>
    if active then s.modAxis a fun r => { r with clampTimer := none }
    else s.modAxis a fun r => { r with clampTimer := s.startMs (clampTimeout s a) }
  | .clampFault => resolveClampFault a s
  | .free | .unclamping => s

/-- The unclamped-confirm input has changed (R40, R41). -/
def unclampedConfirmChange (a : Axis) (active : Bool) (s : State) : State :=
  match (s.axis a).clamp with
  | .unclamping =>
    if active then setClampHold a (s.modAxis a fun r => { r with clamp := .free, clampTimer := none }) else s
  | .clampFault => resolveClampFault a s
  | .free | .clamping | .clamped => s

/-- A conditioned change of input `n` at the clamp of axis `a` (R96, R98). The two confirm inputs of an axis differ (R48). -/
def clampInputChange (a : Axis) (n : Fin 48) (s : State) : State :=
  match (s.cfg.axis.get a).clamp with
  | none => s
  | some c =>
    let s := if c.clamped = n then clampedConfirmChange a (s.input n) s else s
    if c.unclamped = n then unclampedConfirmChange a (s.input n) s else s

/-- Clamp state, output and hold taken from the confirm inputs (R50). -/
def clampFromInputs (a : Axis) (s : State) : State :=
  let st : ClampState :=
    match (s.cfg.axis.get a).clamp with
    | none => .free
    | some c =>
      match s.input c.clamped, s.input c.unclamped with
      | true, true => .clampFault
      | true, false => .clamped
      | false, _ => .free
  setClampHold a (s.modAxis a fun r =>
    { r with clamp := st, clampOut := decide (st = .clamped), clampTimer := none })

/-! ## Faults -/

/-- The reasons after which the drive is taken off at once (R45). -/
def AxisReason.immediate : AxisReason → Bool
  | .driveFault | .driveSilent => true
  | _ => false

/-- A fault raised for an axis (R45): it creates the record and the FAULT hold, or is reported as SECOND_FAULT. -/
def raiseAxisFault (a : Axis) (reason : AxisReason) (code : Byte) (s : State) : State :=
  let r := s.axis a
  match r.fault with
  | some _ => raise .secondFault (.axis a) reason.number s
  | none =>
    let done := reason.immediate || decide (r.follower = .held) || decide (r.follower = .disabled)
    raise .axisFault (.axis a) (reason.number + 256 * code.toNat)
      (s.modAxis a fun r =>
        { r with fault := some ⟨reason, done, code⟩, holds := { r.holds with fault := true } })

/-- The conditioned positive-limit input has changed (R44, R47). -/
def posLimitChange (a : Axis) (active : Bool) (s : State) : State :=
  if active then raiseAxisFault a .hardLimitPos 0 s
  else s.modAxis a fun r => { r with escape := if r.escape = some .negative then none else r.escape }

/-- The conditioned negative-limit input has changed (R44, R47). -/
def negLimitChange (a : Axis) (active : Bool) (s : State) : State :=
  if active then raiseAxisFault a .hardLimitNeg 0 s
  else s.modAxis a fun r => { r with escape := if r.escape = some .positive then none else r.escape }

/-- A conditioned change of input `n` at the hard limits of axis `a` (R44, R47). Its two limit inputs differ
(R48). -/
def limitInputChange (a : Axis) (n : Fin 48) (s : State) : State :=
  let p := s.cfg.axis.get a
  let s := if p.posLimit = some n then posLimitChange a (s.input n) s else s
  if p.negLimit = some n then negLimitChange a (s.input n) s else s

/-- Hard-limit inputs that are already active raise their faults (R44). With both active the positive one comes first,
so that it makes the record and the negative one is SECOND_FAULT (model's choice, log 51). -/
def activeLimits (a : Axis) (s : State) : State :=
  let p := s.cfg.axis.get a
  let s := if s.inputOpt p.posLimit then raiseAxisFault a .hardLimitPos 0 s else s
  if s.inputOpt p.negLimit then raiseAxisFault a .hardLimitNeg 0 s else s

/-- A conditioned change of input `n` at the conditioner of axis `a` (R96). An input that is a hard limit and a clamp
confirm of the same axis acts at the limit first, then at the clamp (model's choice, log 52). -/
def axisInputChange (a : Axis) (n : Fin 48) (s : State) : State :=
  clampInputChange a n (limitInputChange a n s)

/-- The limit-escape direction from the hard-limit inputs (R47). -/
def escapeFor (pos neg : Bool) : Option Dir :=
  match pos, neg with
  | true, false => some .negative
  | false, true => some .positive
  | _, _ => none

/-- CLEAR_FAULTS on one axis (R46, R47). -/
def clearAxis (a : Axis) (s : State) : State :=
  let p := s.cfg.axis.get a
  let pos := s.inputOpt p.posLimit
  let neg := s.inputOpt p.negLimit
  let s := s.modAxis a fun r => { r with escape := escapeFor pos neg }
  if pos && neg then s
  else
    resolveClampFault a (s.modAxis a fun r =>
      { r with fault := none, holds := { r.holds with fault := false }, driveFaultMem := false })

/-- The effects of a new axis parameter table on its axis (R49, R50, R44). C is limited to the new ceiling (R17); with
the drive enable forwarded the activation is taken only when that changes nothing. -/
def axisTableActivated (a : Axis) (old : AxisParams) (s : State) : State :=
  let p := s.cfg.axis.get a
  let s := s.modAxis a fun r =>
    { r with
      comp := clampInt r.comp (-p.ceiling) p.ceiling
      escape :=
        match r.escape with
        | some .negative => if p.posLimit = old.posLimit then r.escape else none
        | some .positive => if p.negLimit = old.negLimit then r.escape else none
        | none => none }
  activeLimits a (clampFromInputs a s)

/-! ## Drive returns -/

/-- A return of station a + 1 is corrected (R15) and tested for a following error (R43). -/
def correctReturn (a : Axis) (q : Byte) (actual : Int) (s : State) : State :=
  let r := s.axis a
  match sentComp r.sent q with
  | none => s.modAxis a fun r => { r with uncorrected := true }
  | some c =>
    let pos := actual - c
    let s := s.modAxis a fun r => { r with corrected := pos, returned := true }
    if r.enableFwd ∧ (s.cfg.axis.get a).errorLimit < (pos - r.f).natAbs then raiseAxisFault a .followingError 0 s
    else s

/-- Drive status of a return: 1 READY, 2 ENABLED, 3 FAULT (R202). A FAULT with the memory clear raises
DRIVE_FAULT (R43). -/
def axisDriveStatus (a : Axis) (status : Nat) (code : Byte) (s : State) : State :=
  if status = 3 then
    if (s.axis a).driveFaultMem then s
    else raiseAxisFault a .driveFault code (s.modAxis a fun r => { r with driveFaultMem := true })
  else s.modAxis a fun r => { r with driveFaultMem := false }

/-- The return of an axis station (R15, R43). -/
def axisReturn (a : Axis) (q : Byte) (actual : Int) (status : Nat) (code : Byte) (s : State) : State :=
  axisDriveStatus a status code (correctReturn a q actual s)

end Sys2Proof.Machine
end

