-- ==== Sys2Proof/Machine/Permissions.lean ====
section
/-! DEFINITION. The Interlock Evaluator: terms, rows, the permission set and the INTERLOCK hold (R105 to R110). -/

namespace Sys2Proof.Machine

/-- The keyswitch is in SETUP (R98): its conditioned state is active, or no keyswitch is designated. -/
def keySetup (s : State) : Bool :=
  match s.cfg.inputs.keyswitch with
  | none => true
  | some n => s.input n

/-- The pendant is LIVE with its enable held (R106). -/
def pendantEnabled (s : State) : Bool := s.pdu.live && s.pdu.enable

/-- The spindle is at standstill (R56). -/
def standstill (s : State) : Bool := decide (s.sgu.actual.natAbs ≤ s.cfg.gear.stopThreshold)

/-- The term "gear SETTLED" (R51): shift state SETTLED with purge wait clear. -/
def gearSettled (s : State) : Bool := decide (s.sgu.shift = .settled) && !s.sgu.purgeWait

/-- The condition that a term names (R106). -/
def condHolds (s : State) : Cond → Bool
  | .input n => s.input n
  | .keySetup => keySetup s
  | .pendantEnabled => pendantEnabled s
  | .gearSettled => gearSettled s
  | .gearRange g => decide (s.sgu.current = some g)
  | .circuitRunning c => decide ((s.clu.circuit.get c).state = .running)
  | .axisClamped a => decide ((s.axis a).clamp = .clamped)
  | .axisReferenced a => (s.axis a).referenced
  | .standstill => standstill s

/-- A term holds by its sense (R106). -/
def termHolds (s : State) (t : Term) : Bool := condHolds s t.cond == t.holds

/-- A row is satisfied by its mode (R107). -/
def rowHolds (s : State) (r : Row) : Bool :=
  if r.any then r.terms.any (termHolds s) else r.terms.all (termHolds s)

/-- A permission is granted while every row that targets it is satisfied (R107). -/
def permGranted (s : State) (p : Perm) : Bool :=
  s.cfg.interlock.all fun r => decide (r.target ≠ p) || rowHolds s r

/-- The whole permission set for the state as it stands (R108). -/
def evalPerms (s : State) : PermSet :=
  { move := .ofFn fun a => permGranted s (.move a)
    spindleRun := permGranted s .spindleRun
    gearShift := permGranted s .gearShift
    unclamp := .ofFn fun a => permGranted s (.unclamp a)
    coolant := ⟨permGranted s (.coolant .flood), permGranted s (.coolant .through), permGranted s (.coolant .air)⟩
    handwheel := permGranted s .handwheel }

/-- The INTERLOCK hold follows a MOVE permission that has changed (R108). -/
def interlockAfter (before after hold : Bool) : Bool :=
  if before && !after then true else if !before && after then false else hold

/-- One evaluation (R108): the set is replaced whole, and INTERLOCK follows the MOVE permissions that changed. -/
def ileEval (s : State) : State :=
  let new := evalPerms s
  let upd (a : Axis) (r : AxisRec) : AxisRec :=
    { r with holds := { r.holds with
        interlock := interlockAfter (s.perms.move.get a) (new.move.get a) r.holds.interlock } }
  { s with
    perms := new
    axes := ⟨upd .x s.axes.x, upd .y s.axes.y, upd .z s.axes.z, upd .w s.axes.w, upd .b s.axes.b⟩ }

/-- A block reads the set "either before or after an evaluation" (R108) that the present step calls for: if the two
sets differ, which one is free (log 8). -/
def ileMay (s : State) : State :=
  if evalPerms s = s.perms then s else freeChoice ileEval id s

/-- The evaluation at a reset (R110): INTERLOCK stands on exactly the axes whose MOVE it withdraws. -/
def ileReset (s : State) : State :=
  let new := evalPerms s
  let upd (a : Axis) (r : AxisRec) : AxisRec :=
    { r with holds := { r.holds with interlock := !new.move.get a } }
  { s with
    perms := new
    axes := ⟨upd .x s.axes.x, upd .y s.axes.y, upd .z s.axes.z, upd .w s.axes.w, upd .b s.axes.b⟩ }

end Sys2Proof.Machine
end

