-- ==== Sys2Proof/Machine/Motion.lean ====
section
/-! DEFINITION. The motion half of an axis record (chapter 2): overlay, target, soft window, follower, edge bounds
and drive enable, and the whole drive frame of one conditioner. -/

namespace Sys2Proof.Machine

/-! ## Absorb, overlay, target -/

/-- The absorb (R24): the overlay after it and whether it was refused. -/
def absorb (overlay amount : Int) (limit : Nat) : Int × Bool :=
  if amount = 0 then (overlay, false)
  else if (overlay - amount).natAbs ≤ limit then (overlay - amount, false)
  else (overlay, true)

/-- The pending increment applies when all the conditions of R25 hold. -/
def incrementApplies (s : State) (a : Axis) : Bool :=
  pendantEnabled s && s.perms.handwheel && decide ((s.axis a).clamp = .free) && (s.axis a).fault.isNone

/-- The pending increment is applied to the overlay or dropped (R25). -/
def applyIncrement (a : Axis) (s : State) : State :=
  let r := s.axis a
  let limit := (s.cfg.axis.get a).overlayLimit
  if incrementApplies s a then
    let sum := r.overlay + r.pendingInc
    let o := clampInt sum (-limit) limit
    let s' := s.modAxis a fun r => { r with overlay := o, pendingInc := 0 }
    if o = sum then s' else raise .handwheelLimit (.axis a) (min (sum - o).natAbs 65535) s'
  else s.modAxis a fun r => { r with pendingInc := 0 }

/-- The target (R26). -/
def target (setpoint overlay : Int) : Int := clampInt (setpoint + overlay) (-span) span

/-- The soft window applies to a referenced linear axis (R27). -/
def windowed (a : Axis) (referenced : Bool) : Bool := a.linear && referenced

/-- The target after the soft window, widened to the axis's own position (R27). -/
def softWindow (p : AxisParams) (on : Bool) (fPrev t : Int) : Int :=
  if on then clampInt t (min p.softMin fPrev) (max p.softMax fPrev) else t

/-- The further limit while a limit-escape direction stands (R31). -/
def escapeLimit (e : Option Dir) (fPrev t : Int) : Int :=
  match e with
  | none => t
  | some .negative => min t fPrev
  | some .positive => max t fPrev

/-! ## Bounds -/

/-- Search for the largest k with a × k × (k + 1) / 2 ≤ x, bit by bit from 2^n down, above `k`. -/
def brakeSearch (a x : Nat) : Nat → Nat → Nat
  | 0, k => k
  | n + 1, k =>
    let k' := k + 2 ^ n
    brakeSearch a x n (if a * (k' * (k' + 1)) ≤ 2 * x then k' else k)

/-- The braking bound for deceleration `a` and distance `x` (R30). -/
def brakeBound (a x : Nat) : Nat :=
  let k := brakeSearch a x (Nat.log2 x + 1) 0
  if k = 0 then x else k * a

/-- aw, the smaller of amax and dmax (R30). -/
def edgeDecel (p : AxisParams) : Nat := min p.amax p.dmax

/-- G+ (R31). -/
def edgePos (p : AxisParams) (on : Bool) (e : Option Dir) (fPrev : Int) : Nat :=
  let edge := if on then p.softMax else span
  if e = some .negative then 0
  else if fPrev ≤ edge then brakeBound (edgeDecel p) (edge - fPrev).toNat
  else 0

/-- G− (R31). -/
def edgeNeg (p : AxisParams) (on : Bool) (e : Option Dir) (fPrev : Int) : Nat :=
  let edge := if on then p.softMin else -span
  if e = some .positive then 0
  else if edge ≤ fPrev then brakeBound (edgeDecel p) (fPrev - edge).toNat
  else 0

/-- The speed bound in force (R29). -/
def vmaxEff (s : State) (a : Axis) : Nat :=
  let p := s.cfg.axis.get a
  if keySetup s || s.pdu.enable || pitchWithheld s a then p.vsetup else p.vmax

/-! ## Follower -/

/-- What the step rules read: position and step before the frame, limited target, bounds. -/
structure StepIn where
  fPrev : Int
  sPrev : Int
  target : Int
  vEff : Nat
  amax : Nat
  dmax : Nat
  gPos : Nat
  gNeg : Nat
deriving DecidableEq, Repr

/-- The edge bound in the direction of a distance (R31). -/
def edgeFor (i : StepIn) (d : Int) : Nat := if 0 ≤ d then i.gPos else i.gNeg

/-- TRACKING can take the whole distance in this frame (R32). -/
def trackingFits (i : StepIn) : Bool :=
  let d := i.target - i.fPrev
  decide (d.natAbs ≤ i.vEff) && decide ((d - i.sPrev).natAbs ≤ i.amax) && decide (d.natAbs ≤ edgeFor i d)

/-- The step of CATCH_UP (R33). -/
def catchUpStep (i : StepIn) : Int :=
  let d := i.target - i.fPrev
  let v := signInt d * (min (min d.natAbs i.vEff) (min (brakeBound i.amax d.natAbs) (edgeFor i d)) : Nat)
  let s1 := clampInt v (i.sPrev - i.amax) (i.sPrev + i.amax)
  if i.vEff < s1.natAbs then signInt s1 * (min s1.natAbs (max i.vEff (i.sPrev.natAbs - i.dmax)) : Nat) else s1

/-- The step of HOLDING (R34). -/
def holdingStep (i : StepIn) : Int := signInt i.sPrev * (i.sPrev.natAbs - i.dmax : Nat)

/-- The outcome of the follower in a frame: state, step, and the reports that go with them. -/
structure StepOut where
  follower : Follower
  step : Int
  /-- f has come to t′, TRACKING from the next frame (R33). -/
  arrived : Bool
  /-- STEP_LIMITED is raised (R32). -/
  limited : Bool
deriving DecidableEq, Repr

/-- A frame formed by the CATCH_UP rule (R33). -/
def catchUp (i : StepIn) (limited : Bool) : StepOut :=
  let s := catchUpStep i
  ⟨.catchUp, s, decide (i.fPrev + s = i.target), limited⟩

/-- A frame formed by the HOLDING rule (R34). -/
def holdFrame (i : StepIn) : StepOut :=
  let s := holdingStep i
  ⟨if s = 0 then .held else .holding, s, false, false⟩

/-- A frame that starts in TRACKING with no hold (R32). -/
def trackingFrame (i : StepIn) : StepOut :=
  if trackingFits i then ⟨.tracking, i.target - i.fPrev, false, false⟩ else catchUp i true

/-- The follower with the drive enable forwarded (R32 to R35); `held` says that the hold-reason set is not empty. A
follower that was DISABLED takes up motion from rest. -/
def followerFrame (st : Follower) (held : Bool) (i : StepIn) : StepOut :=
  match st, held with
  | .disabled, true => ⟨.held, 0, false, false⟩
  | .disabled, false => if i.fPrev = i.target then trackingFrame i else catchUp i false
  | .tracking, true | .catchUp, true | .holding, true => holdFrame i
  | .held, true => ⟨.held, 0, false, false⟩
  | .tracking, false => trackingFrame i
  | .catchUp, false | .holding, false => catchUp i false
  | .held, false => if i.fPrev = i.target then ⟨.tracking, 0, false, false⟩ else catchUp i false

/-- Any hold reason stands. -/
def Holds.any (h : Holds) : Bool :=
  h.interlock || h.clamp || h.coolantLoss || h.feedHold || h.pendantLost || h.linkLost || h.standby || h.fault

/-! ## Drive enable -/

/-- The drive enable forwarded in a frame (R38). -/
def enableForwarded (s : State) (a : Axis) : Bool :=
  let r := s.axis a
  let bridge :=
    match s.fsw.state with
    | .running => true
    | .linkLost => r.enableFwd
    | .standby => r.holds.standby
    | .reset | .loading => false
  let stopped := match r.fault with
    | some e => e.stopComplete
    | none => false
  r.slot.driveEnable && bridge && s.isValid (.axisParams a) && r.returned && !stopped

/-! ## The frame -/

/-- Slot values of a command frame for one axis (R23 step 1): the kept values and the absorb amount. -/
structure AxisCmd where
  slot : AxisSlot
  absorb : Int
deriving DecidableEq, Repr

/-- The referenced flag after the slot's (R28). -/
def referencedAfter (slot record : Bool) (sPrev : Int) : Bool := slot && (record || decide (sPrev = 0))

/-- Steps 1 to 3 of R23: slot values, referenced flag, holds, clamp request. The frame keeps the clamp configuration of
the table copy that its part uses, for what acts at its end (R17). -/
def axisTake (a : Axis) (cmd : Option AxisCmd) (s : State) : State :=
  let s := match cmd with
    | none => s
    | some c => s.modAxis a fun r => { r with slot := c.slot }
  let s := s.modAxis a fun r =>
    { r with
      referenced := referencedAfter r.slot.referenced r.referenced r.s, frameClamp := (s.cfg.axis.get a).clamp }
  unclampIfPermitted a (setClampHold a (ileMay s))

/-- Step 4 of R23: the absorb, then the pending increment. A self-paced frame has no absorb (log 13). -/
def axisOverlay (a : Axis) (cmd : Option AxisCmd) (s : State) : State :=
  let amount := match cmd with
    | none => 0
    | some c => c.absorb
  let r := absorb (s.axis a).overlay amount (s.cfg.axis.get a).overlayLimit
  applyIncrement a (s.modAxis a fun x => { x with overlay := r.1, absorbRefused := r.2 })

/-- The side of a soft-window cut (R27): 0 soft min, 1 soft max. -/
def windowSide (t t' : Int) : Nat := if t < t' then 0 else 1

/-- Steps 5 to 8 of R23. A follower that is DISABLED for the frame takes the follow-up position; one that takes up
motion starts from it at rest (R35, log 11, 12). -/
def axisMove (a : Axis) (s : State) : State :=
  let r := s.axis a
  let p := s.cfg.axis.get a
  let enable := enableForwarded s a
  let followUp := if r.returned then clampInt r.corrected (-span) span else r.f
  let takesUp := enable && decide (r.follower = .disabled)
  let fPrev := if takesUp then followUp else r.f
  let sPrev := if takesUp then 0 else r.s
  let on := windowed a r.referenced
  let t := target r.slot.setpoint r.overlay
  let tw := softWindow p on fPrev t
  let i : StepIn :=
    { fPrev := fPrev, sPrev := sPrev, target := escapeLimit r.escape fPrev tw, vEff := vmaxEff s a,
      amax := p.amax, dmax := p.dmax, gPos := edgePos p on r.escape fPrev, gNeg := edgeNeg p on r.escape fPrev }
  let o := if enable then followerFrame r.follower r.holds.any i else ⟨.disabled, 0, false, false⟩
  let f := if enable then fPrev + o.step else followUp
  let cut := decide (tw ≠ t)
  let s := s.modAxis a fun r =>
    { r with
      follower := o.follower, f := f, s := o.step, t := t, w := t - f, arrived := o.arrived,
      enableFwd := enable, windowClamp := cut
      holds := if o.follower = .disabled then { r.holds with standby := false } else r.holds }
  let s := if cut && !r.windowClamp then raise .softLimit (.axis a) (windowSide t tw) s else s
  if o.limited then raise .stepLimited (.axis a) 0 s else s

/-- One axis conditioner in one drive frame of sequence `q` (R23, then R2). In a frame in which the follower is
DISABLED with a clamp request standing, clamping begins (R39, log 14). -/
def axisFrame (a : Axis) (cmd : Option AxisCmd) (q : Byte) (s : State) : State :=
  compensate a q (clampIfRequested a .disabled (axisMove a (axisOverlay a cmd (axisTake a cmd s))))

/-- What acts at the end of a drive frame, as it leaves the D-port (R147): the stop-complete mark (R45), the STANDBY
hold (R37), clamping from HELD (R39), and TRACKING from the next frame (R33). The clamping is that of the table copy which
the axis's part used (R17, `clampOfFrame`). -/
def axisFrameEnd (a : Axis) (s : State) : State :=
  let r := s.axis a
  let s :=
    if r.follower = .held then
      s.modAxis a fun r =>
        { r with
          fault := r.fault.map fun e => { e with stopComplete := true }
          holds := { r.holds with standby := false } }
    else s
  let s := s.modAxis a fun r =>
    { r with follower := if r.arrived then .tracking else r.follower, arrived := false }
  clampIfRequested a .held s

end Sys2Proof.Machine
end

