-- ==== Sys2Proof/Machine/SpindleSpeed.lean ====
section
/-! DEFINITION. Spindle speed in a settled range: scaling to the motor (R53) and back (R56). -/

namespace Sys2Proof.Machine

/-- The range record of a range under the active gear table. -/
def rangeRec (s : State) (g : Gear) : Option RangeRec :=
  match s.cfg.gear.ranges with
  | none => none
  | some r => r.record g

/-- The gearbox is SETTLED in one of ranges I to IV; its range record. -/
def settledRange (s : State) : Option RangeRec :=
  if s.sgu.shift = .settled then
    match s.sgu.current with
    | none => none
    | some g => rangeRec s g
  else none

/-- The reported spindle speed (R56). -/
def reportedSpeed (s : State) : Int :=
  match settledRange s with
  | none => 0
  | some r => sat32 (roundDiv (s.sgu.actual * r.den) r.num)

/-- The spindle speed that THROUGH uses (R85). -/
def throughSpeed (s : State) : Nat := (reportedSpeed s).natAbs

/-- A non-zero speed demand limited to the window of a range (R53 step 2). -/
def windowSpeed (r : RangeRec) (d : Nat) : Nat := if d < r.wmin then r.wmin else if r.wmax < d then r.wmax else d

/-- The motor magnitude for a limited speed demand, before the motor maximum (R53 step 3). -/
def motorMagnitude (r : RangeRec) (d : Nat) : Nat := (roundDiv (d * r.num : Nat) r.den).natAbs

/-- The motor speed demand of a settled range, and SPEED_LIMITED (R53). -/
def rangeDemand (r : RangeRec) (motorMax : Nat) (slot : SpindleSlot) : Int × Bool :=
  if slot.speed = 0 then (0, false)
  else
    let d := windowSpeed r slot.speed
    let m := motorMagnitude r d
    let m' := min m motorMax
    (if slot.ccw then -m' else m', decide (d ≠ slot.speed) || decide (m' ≠ m))

end Sys2Proof.Machine
end

