-- ==== Sys2Proof/Machine/Coolant.lean ====
section
/-! DEFINITION. The Coolant Unit (chapter 4): circuits, purge, the coolant-loss hold and the pulse-width channels. -/

namespace Sys2Proof.Machine

def State.circuit (s : State) (c : Circuit) : CircuitRec := s.clu.circuit.get c

def State.circuitCfg (s : State) (c : Circuit) : CircuitCfg := s.cfg.coolant.circuit.get c

def State.modCircuit (s : State) (c : Circuit) (g : CircuitRec → CircuitRec) : State :=
  s.modClu fun u => { u with circuit := u.circuit.set c (g (u.circuit.get c)) }

/-! ## Pulse-width channels -/

def State.pw (s : State) : Channel → Pw
  | .pw0 => s.clu.pw0
  | .pw1 => s.clu.pw1

def State.setPw (s : State) (ch : Channel) (p : Pw) : State :=
  match ch with
  | .pw0 => s.modClu fun u => { u with pw0 := p }
  | .pw1 => s.modClu fun u => { u with pw1 := p }

/-- A period begins with the pair in effect: the output is high for duty/256 of it, so not at all for duty 0 (R89). -/
def Pw.begin (p : Pw) (pair : PwPair) : Pw := { p with eff := pair, high := decide (pair.duty ≠ 0) }

/-- A new pair is staged (R90); it takes effect at once when the base in effect or the staged base is 0. -/
def Pw.stage (p : Pw) (pair : PwPair) : Pw :=
  let p := { p with staged := pair }
  if pair.base = 0 then { p with eff := pair, high := false }
  else if p.eff.base = 0 then p.begin pair
  else p

/-- The start of a pulse-width period (R90): the staged pair takes effect. With base 0 no periods run. -/
def Pw.periodStart (p : Pw) : Pw := if p.eff.base = 0 then p else p.begin p.staged

/-- The end of the high part (R89). -/
def Pw.highEnd (p : Pw) : Pw := { p with high := false }

/-- The circuit of a channel and its level-to-duty list (R89). -/
def channelCircuit : Channel → Circuit
  | .pw0 => .through
  | .pw1 => .flood

def channelBase (t : CoolantTable) : Channel → Nat
  | .pw0 => t.pw0Base
  | .pw1 => t.pw1Base

def dutyList (t : CoolantTable) : Channel → List Nat
  | .pw0 => t.throughDuty
  | .pw1 => t.floodDuty

/-- PRIMING or RUNNING: the pump or valve of the circuit is on (R75). -/
def CircuitState.on : CircuitState → Bool
  | .priming | .running => true
  | .off | .purging | .faulted => false

/-- The pair that a channel gets for the state as it stands (R89). -/
def channelPair (s : State) (ch : Channel) : PwPair :=
  let r := s.circuit (channelCircuit ch)
  ⟨channelBase s.cfg.coolant ch, if r.state.on then (dutyList s.cfg.coolant ch).getD r.level 0 else 0⟩

def stageChannel (ch : Channel) (s : State) : State := s.setPw ch ((s.pw ch).stage (channelPair s ch))

/-- The channel of a circuit is staged in the event of each state change (R90). -/
def stageCircuit (c : Circuit) (s : State) : State :=
  match c with
  | .through => stageChannel .pw0 s
  | .flood => stageChannel .pw1 s
  | .air => s

/-! ## State changes of a circuit -/

/-- A circuit leaves PRIMING or RUNNING for OFF (R82). -/
def circuitOff (c : Circuit) (s : State) : State :=
  stageCircuit c (s.modCircuit c fun r => { r with state := .off, primeTimer := none, lossTimer := none })

/-- THROUGH enters PURGING (R83). -/
def enterPurging (s : State) : State :=
  stageCircuit .through (s.modCircuit .through fun r =>
    { r with state := .purging, primeTimer := none, lossTimer := none, purgeTimer := s.startMs s.cfg.coolant.purge })

/-- A stopped circuit: THROUGH purges, FLOOD and AIR go OFF (R82). -/
def stopCircuit (c : Circuit) (s : State) : State :=
  match c with
  | .through => enterPurging s
  | .flood | .air => circuitOff c s

def CircuitFault.number : CircuitFault → Nat
  | .noPressure => 1
  | .pressureLost => 2

/-- The coolant-loss hold (R88). An empty mask places no hold and sets no mark (log 20). -/
def placeLossHold (s : State) : State :=
  let t := s.cfg.coolant
  if t.holdEnabled ∧ s.clu.lossHold = false ∧ t.holdMask ≠ .all false then
    let upd (on : Bool) (r : AxisRec) : AxisRec :=
      { r with holds := { r.holds with coolantLoss := on || r.holds.coolantLoss } }
    { s with
      clu := { s.clu with lossHold := true }
      axes := ⟨upd t.holdMask.x s.axes.x, upd t.holdMask.y s.axes.y, upd t.holdMask.z s.axes.z,
        upd t.holdMask.w s.axes.w, upd t.holdMask.b s.axes.b⟩ }
  else s

/-- Entry to FAULTED (R81, R88). -/
def enterFaulted (c : Circuit) (reason : CircuitFault) (s : State) : State :=
  let s := stageCircuit c (s.modCircuit c fun r =>
    { r with state := .faulted, primeTimer := none, lossTimer := none, fault := some reason })
  let s := raise .coolantFault (.circuit c) reason.number s
  if c = .through ∧ reason = .pressureLost then placeLossHold s else s

/-- The pressure switch of a circuit is active, or it has none (R79). -/
def pressureReady (s : State) (c : Circuit) : Bool :=
  match (s.circuitCfg c).switch with
  | none => true
  | some n => s.input n

/-- A starting circuit (R79). -/
def startCircuit (c : Circuit) (s : State) : State :=
  if pressureReady s c then stageCircuit c (s.modCircuit c fun r => { r with state := .running })
  else stageCircuit c (s.modCircuit c fun r =>
    { r with state := .priming, primeTimer := s.startMs (s.circuitCfg c).prime })

/-- The pressure switch of a circuit has changed (R79, R80). With tolerance 0 the loss timer expires at once. -/
def pressureChange (c : Circuit) (active : Bool) (s : State) : State :=
  match (s.circuit c).state, active with
  | .priming, true => stageCircuit c (s.modCircuit c fun r => { r with state := .running, primeTimer := none })
  | .running, true => s.modCircuit c fun r => { r with lossTimer := none }
  | .running, false =>
    if (s.circuitCfg c).loss = 0 then enterFaulted c .pressureLost s
    else s.modCircuit c fun r => { r with lossTimer := s.startMs (s.circuitCfg c).loss }
  | _, _ => s

/-! ## Drive frames -/

/-- The tank-low input is active (R78, R87). -/
def tankLow (s : State) : Bool := s.inputOpt s.cfg.coolant.tankLow

/-- Gear record SETTLED in one of ranges I to IV (R82). -/
def inGear (s : State) : Bool :=
  decide (s.sgu.shift = .settled) &&
    match s.sgu.current with
    | some .neutral | none => false
    | some _ => true

/-- The coolant field of a command frame (R77). -/
structure CoolantCmd where
  flood : Bool
  through : Bool
  air : Bool
  throughLevel : Nat
  floodLevel : Nat
deriving DecidableEq, Repr

/-- Step 1 of R76 (R77): the field of a command frame, or every request clear with the levels kept. -/
def takeCoolant (cmd : Option CoolantCmd) (s : State) : State :=
  match cmd with
  | none =>
    s.modClu fun u =>
      { u with circuit := ⟨{ u.circuit.flood with request := false }, { u.circuit.through with request := false },
          { u.circuit.air with request := false }⟩ }
  | some c =>
    s.modClu fun u =>
      { u with circuit :=
          ⟨{ u.circuit.flood with request := c.flood, level := min c.floodLevel 15 },
           { u.circuit.through with request := c.through, level := min c.throughLevel 15 },
           { u.circuit.air with request := c.air }⟩ }

/-- What the CLU reads in step 2 of R76. -/
structure CoolantIn where
  perms : PerCircuit Bool
  latch : Bool
  tankLow : Bool
  inGear : Bool
  settled : Bool
  fast : Bool
deriving DecidableEq, Repr

def coolantIn (s : State) : CoolantIn :=
  { perms := s.perms.coolant, latch := s.pdu.coolantStop, tankLow := tankLow s, inGear := inGear s,
    settled := inGear s && !s.sgu.purgeWait, fast := decide (s.cfg.coolant.unionMin ≤ throughSpeed s) }

/-- A stop cause of R82 holds for a circuit. -/
def stopCause (i : CoolantIn) (c : Circuit) (request : Bool) : Bool :=
  !request || !i.perms.get c || i.latch || i.tankLow || (decide (c = .through) && (!i.fast || !i.inGear))

/-- Step 3 of R76 for one circuit; tank low and the latch are reported as in R87 (log 21). -/
def stopTest (i : CoolantIn) (c : Circuit) (s : State) : State :=
  let r := s.circuit c
  if r.state.on && stopCause i c r.request then
    let s := stopCircuit c s
    if i.tankLow then raise .coolantStopped (.circuit c) 0 s
    else if i.latch then raise .coolantStopped (.circuit c) 1 s
    else s
  else s

/-- The start conditions of R78. -/
def canStart (i : CoolantIn) (c : Circuit) (s : State) : Bool :=
  (s.circuitCfg c).enabled && i.perms.get c && !i.latch && !i.tankLow &&
    match c with
    | .flood => true
    | .through => i.settled && i.fast && !(s.circuit .air).state.on
    | .air => !(s.circuit .through).state.on && decide ((s.circuit .through).state ≠ .purging)

/-- Step 4 of R76 for one circuit. -/
def startTest (i : CoolantIn) (c : Circuit) (s : State) : State :=
  let r := s.circuit c
  if r.state = .off ∧ r.request ∧ canStart i c s then startCircuit c s else s

/-- The CLU in one drive frame (R76). The stop tests go FLOOD, THROUGH, AIR, and so do their notices (model's choice,
log 36). -/
def coolantFrame (cmd : Option CoolantCmd) (s : State) : State :=
  let s := takeCoolant cmd s
  let i := coolantIn s
  let s := stopTest i .air (stopTest i .through (stopTest i .flood s))
  let s := startTest i .flood (startTest i .air (startTest i .through s))
  stageChannel .pw1 (stageChannel .pw0 s)

/-! ## Between drive frames -/

/-- A circuit in PRIMING or RUNNING is stopped by tank low (detail 0) or the COOLANT_STOP latch (detail 1) in the
event of the change (R87). -/
def stopNow (detail : Nat) (c : Circuit) (s : State) : State :=
  if (s.circuit c).state.on then raise .coolantStopped (.circuit c) detail (stopCircuit c s) else s

/-- Tank low or the latch at every circuit (R87). Their COOLANT_STOPPED notices join in the order FLOOD, THROUGH, AIR
(model's choice, log 36). -/
def stopAllNow (detail : Nat) (s : State) : State :=
  stopNow detail .air (stopNow detail .through (stopNow detail .flood s))

/-- A conditioned change of input `n` at the CLU (R96, R98). -/
def coolantInputChange (n : Fin 48) (s : State) : State :=
  let active := s.input n
  let one (c : Circuit) (s : State) : State :=
    if (s.circuitCfg c).switch = some n then pressureChange c active s else s
  let s := one .air (one .through (one .flood s))
  if s.cfg.coolant.tankLow = some n ∧ active then stopAllNow 0 s else s

/-- The CLU takes a purge request (R86); the pump is off afterwards. -/
def takePurgeRequest (s : State) : State := if (s.circuit .through).state.on then enterPurging s else s

/-- CLEAR_FAULTS with scope ALL or COOLANT (R81, R88). -/
def clearCoolant (s : State) : State :=
  let one (c : Circuit) (s : State) : State :=
    if (s.circuit c).state = .faulted then
      stageCircuit c (s.modCircuit c fun r => { r with state := .off, fault := none })
    else s
  let s := one .air (one .through (one .flood s))
  (s.modAxes fun r => { r with holds := { r.holds with coolantLoss := false } }).modClu
    fun u => { u with lossHold := false }

/-- A coolant table comes into use: both channels are staged with duty 0 (R92, R94). -/
def coolantTableActivated (s : State) : State :=
  let st (ch : Channel) (s : State) : State := s.setPw ch ((s.pw ch).stage ⟨channelBase s.cfg.coolant ch, 0⟩)
  st .pw1 (st .pw0 s)

/-- The CLU after a cold or warm reset (R94). -/
def coolantReset (s : State) : State := coolantTableActivated { s with clu := .reset }

/-- The levels that the CLU's functions call for (R75). -/
def floodPumpOn (s : State) : Bool := (s.circuit .flood).state.on

def throughPumpOn (s : State) : Bool := (s.circuit .through).state.on

def airValveOn (s : State) : Bool :=
  decide ((s.circuit .through).state = .purging) || (s.circuit .air).state.on

end Sys2Proof.Machine
end

