-- ==== Sys2Proof/Machine/Spindle.lean ====
section
/-! DEFINITION. The Spindle Gear Unit (chapter 3): shift sequence, gear sensors, spindle faults and the station 6
part of a drive frame. -/

namespace Sys2Proof.Machine

def ShiftFailure.number : ShiftFailure → Nat
  | .notStopped => 1
  | .noMesh => 2
  | .sensorConflict => 3

/-- Fault reason numbers (R200). -/
def SpindleReason.number : SpindleReason → Nat
  | .driveFault => 2
  | .driveSilent => 3
  | .gearLost => 7

/-- The number of an optional range, 0 when absent (R203). -/
def gearNumber : Option Gear → Nat
  | none => 0
  | some g => g.number

/-! ## Gear sensors -/

/-- The sensor of a range is active; with no designated sensors none is (R51, R69). -/
def sensorActive (s : State) (g : Gear) : Bool :=
  match s.cfg.gear.ranges with
  | none => false
  | some r => s.input (r.sensor g)

/-- The ranges whose sensors are active. -/
def activeGears (s : State) : List Gear := gears.filter (sensorActive s)

/-- The range of the only active sensor (R69). -/
def onlyGear (s : State) : Option Gear :=
  match activeGears s with
  | [g] => some g
  | _ => none

/-- The gear-lost condition (R70). -/
def gearLostCond (s : State) : Bool :=
  match s.sgu.current with
  | none => false
  | some g => decide (activeGears s ≠ [g])

/-- The sensor timer at entry to SETTLED: running exactly if the gear-lost condition holds (R70, R74, log 17). -/
def watchSettled (s : State) : State :=
  let t := if gearLostCond s then s.startMs s.cfg.gear.confirmTime else none
  s.modSgu fun g => { g with sensorTimer := t }

/-- The sensor timer at entry to UNKNOWN and at each sensor change there (R69). -/
def watchUnknown (s : State) : State :=
  let t := if (onlyGear s).isSome then s.startMs s.cfg.gear.confirmTime else none
  s.modSgu fun g => { g with sensorTimer := t }

/-- Entry to UNKNOWN (R69). -/
def enterUnknown (s : State) : State :=
  watchUnknown (s.modSgu fun g => { g with current := none, shift := .unknown })

/-- Shift state SETTLED in a range. -/
def enterSettled (r : Option Gear) (s : State) : State :=
  watchSettled (s.modSgu fun g => { g with current := r, shift := .settled })

/-! ## Spindle faults -/

/-- A spindle fault is raised (R57); a new GEAR_LOST record raises the event GEAR_LOST with the range lost (R70). -/
def raiseSpindleFault (reason : SpindleReason) (code : Byte) (lost : Nat) (s : State) : State :=
  match s.sgu.fault with
  | some _ => raise .secondFault .spindle reason.number s
  | none =>
    let s := s.modSgu fun g => { g with fault := some ⟨reason, code⟩ }
    match reason with
    | .gearLost => raise .gearLost .spindle lost s
    | .driveFault | .driveSilent => raise .spindleFault .spindle (reason.number + 256 * code.toNat) s

/-! ## The shift sequence -/

/-- Every shift timer stopped; the sensor timer runs in SETTLED and UNKNOWN alone (log 17). -/
def Sgu.timersOff (g : Sgu) : Sgu :=
  { g with stopTimer := none, meshTimer := none, attemptTimer := none, creepTimer := none, confirmTimer := none,
           retryTimer := none, sensorTimer := none }

/-- Entry to STOPPING (R62). -/
def enterStopping (s : State) : State :=
  s.modSgu fun g => { g with shift := .stopping, stopTimer := s.startMs s.cfg.gear.stopTimeout, sensorTimer := none }

/-- Entry to AWAIT_PERMIT (R61). -/
def enterAwait (s : State) : State :=
  raise .shiftWaiting .spindle (gearNumber s.sgu.target)
    (s.modSgu fun g => { g with shift := .awaitPermit, sensorTimer := none })

/-- GEAR_SHIFT is read: granted, STOPPING; withdrawn, AWAIT_PERMIT (R59, R60). The set is read before or after an
evaluation that the same event calls for (log 8). -/
def readGearShift (s : State) : State :=
  let s := ileMay s
  if s.perms.gearShift then enterStopping s else enterAwait s

/-- A shift to range `r` starts (R59). With THROUGH's pump on it sets purge wait; `answerPurge` follows. -/
def startShift (r : Gear) (s : State) : State :=
  let s := s.modSgu fun g =>
    { g with target := some r, attempts := 1, meshElapsed := false, attemptSpent := false }
  if throughPumpOn s then s.modSgu fun g => { g with purgeWait := true } else readGearShift s

/-- The purge request and the pump-off answer (R86, R60). -/
def answerPurge (s : State) : State :=
  if s.sgu.purgeWait then readGearShift ((takePurgeRequest s).modSgu fun g => { g with purgeWait := false }) else s

/-- A shift that starts outside a drive frame, with its purge request. -/
def startShiftNow (r : Gear) (s : State) : State := answerPurge (startShift r s)

/-- Entry to CONFIRMING (R65). -/
def enterConfirming (s : State) : State :=
  s.modSgu fun g =>
    { g with shift := .confirming, creepTimer := none, confirmTimer := s.startMs s.cfg.gear.confirmTime }

/-- The sensor of the target is active. -/
def targetSensed (s : State) : Bool :=
  match s.sgu.target with
  | none => false
  | some g => sensorActive s g

/-- Entry to SHIFTING (R63). A target sensor that is already active sends the shift straight on. -/
def enterShifting (s : State) : State :=
  let s := s.modSgu fun g =>
    { g with shift := .shifting, current := none, meshTimer := s.startMs s.cfg.gear.meshTime,
             attemptTimer := s.startMs s.cfg.gear.attemptTimeout }
  if targetSensed s then enterConfirming s else s

/-- Entry to CREEPING (R64). -/
def enterCreeping (s : State) : State :=
  s.modSgu fun g => { g with shift := .creeping, creepDir := .positive, creepTimer := s.startMs s.cfg.gear.creepHalf }

/-- Entry to FAILED (R68). -/
def enterFailed (s : State) : State :=
  let s := s.modSgu fun g =>
    { g.timersOff with shift := .failed, current := none, pendingTarget := none }
  let failure := match s.sgu.lastFailure with
    | none => 0
    | some e => e.number
  raise .gearShiftFailed .spindle (gearNumber s.sgu.target + 256 * failure) s

/-- An attempt ends in failure (R66). -/
def attemptFails (why : ShiftFailure) (s : State) : State :=
  let s := s.modSgu fun g =>
    { g with meshTimer := none, creepTimer := none, confirmTimer := none, attemptTimer := none,
             lastFailure := some why }
  if s.sgu.attempts < s.cfg.gear.maxAttempts then
    s.modSgu fun g => { g with shift := .retryPause, retryTimer := s.startMs s.cfg.gear.retryPause }
  else enterFailed s

/-- The target is one of ranges I to IV. -/
def targetMeshes (s : State) : Bool :=
  match s.sgu.target with
  | none | some .neutral => false
  | some _ => true

/-- The gear sensor of range `g` has changed (R63 to R65, R69, R70). -/
def sensorChange (g : Gear) (active : Bool) (s : State) : State :=
  match s.sgu.shift with
  | .settled =>
    if gearLostCond s then (if s.sgu.sensorTimer.isSome then s else watchSettled s)
    else s.modSgu fun u => { u with sensorTimer := none }
  | .unknown => watchUnknown s
  | .shifting | .creeping => if active ∧ s.sgu.target = some g then enterConfirming s else s
  | .confirming =>
    if active = false ∧ s.sgu.target = some g then
      let s := s.modSgu fun u => { u with confirmTimer := none }
      if s.sgu.attemptSpent then attemptFails .noMesh s
      else if s.sgu.meshElapsed ∧ targetMeshes s then enterCreeping s
      else s.modSgu fun u => { u with shift := .shifting }
    else s
  | .awaitPermit | .stopping | .retryPause | .failed => s

/-- A conditioned change of input `n` at the SGU (R96, R98). -/
def spindleInputChange (n : Fin 48) (s : State) : State :=
  match s.cfg.gear.ranges with
  | none => s
  | some r =>
    match gears.find? fun g => decide (r.sensor g = n) with
    | none => s
    | some g => sensorChange g (s.input n) s

/-- A shift is cancelled by link loss (R71): back to SETTLED in a known range, else to UNKNOWN. -/
def cancelShift (s : State) : State :=
  let t := gearNumber s.sgu.target
  let s := s.modSgu fun g => { g with purgeWait := false, target := none, retryTimer := none }
  let s := match s.sgu.current with
    | some r => enterSettled (some r) s
    | none => enterUnknown s
  raise .shiftCancelled .spindle t s

/-- The SGU at entry to LINK_LOST (R71). -/
def spindleLinkLost (s : State) : State :=
  let s := s.modSgu fun g => { g with pendingTarget := none, stopping := false }
  if s.sgu.shift = .awaitPermit ∨ (s.sgu.shift = .settled ∧ s.sgu.purgeWait) then cancelShift s else s

/-! ## Timer expiries -/

/-- R62: the stop timer expires. -/
def stopExpired (s : State) : State :=
  let s := s.modSgu fun g => { g with stopTimer := none }
  if s.sgu.shift = .stopping then enterFailed (s.modSgu fun g => { g with lastFailure := some .notStopped }) else s

/-- R63, R65: the mesh timer expires. -/
def meshExpired (s : State) : State :=
  let s := s.modSgu fun g => { g with meshTimer := none, meshElapsed := true }
  if s.sgu.shift = .shifting ∧ targetMeshes s then enterCreeping s else s

/-- R63 to R65: the attempt timer expires. -/
def attemptExpired (s : State) : State :=
  let s := s.modSgu fun g => { g with attemptTimer := none }
  match s.sgu.shift with
  | .shifting | .creeping => attemptFails .noMesh s
  | .confirming => s.modSgu fun g => { g with attemptSpent := true }
  | .settled | .awaitPermit | .stopping | .retryPause | .failed | .unknown => s

/-- R64: the creep timer expires. -/
def creepExpired (s : State) : State :=
  let s := s.modSgu fun g => { g with creepTimer := none }
  if s.sgu.shift = .creeping then
    s.modSgu fun g =>
      { g with creepDir := (match g.creepDir with | .positive => .negative | .negative => .positive)
               creepTimer := s.startMs s.cfg.gear.creepHalf }
  else s

/-- A pending target is acted on when the record becomes SETTLED (R65, R69). -/
def takePending (s : State) : State :=
  match s.sgu.pendingTarget with
  | none => s
  | some r =>
    let s := s.modSgu fun g => { g with pendingTarget := none }
    if s.sgu.current = some r then s else startShiftNow r s

/-- R65: the confirm timer expires. -/
def confirmExpired (s : State) : State :=
  let s := s.modSgu fun g => { g with confirmTimer := none }
  if s.sgu.shift = .confirming then
    if (activeGears s).all fun g => decide (s.sgu.target = some g) then
      let r := s.sgu.target
      let s := s.modSgu fun g =>
        { g with meshTimer := none, attemptTimer := none, target := none, lastFailure := none }
      takePending (raise .gearSettled .spindle (gearNumber r) (enterSettled r s))
    else attemptFails .sensorConflict s
  else s

/-- R67: the retry timer expires. In LINK_LOST a retry that finds GEAR_SHIFT withdrawn is cancelled (R71). -/
def retryExpired (s : State) : State :=
  let s := s.modSgu fun g => { g with retryTimer := none }
  if s.sgu.shift = .retryPause then
    let s := ileMay (s.modSgu fun g =>
      { g with attempts := g.attempts + 1, meshElapsed := false, attemptSpent := false })
    if s.perms.gearShift then enterStopping s
    else if s.fsw.state = .linkLost then cancelShift s
    else enterAwait s
  else s

/-- R70: a lost gear is taken. -/
def takeGearLost (s : State) : State :=
  let lost := gearNumber s.sgu.current
  raiseSpindleFault .gearLost 0 lost
    (enterUnknown (s.modSgu fun g => { g with purgeWait := false, target := none, pendingTarget := none }))

/-- R69, R70: the sensor timer expires. -/
def sensorExpired (s : State) : State :=
  let s := s.modSgu fun g => { g with sensorTimer := none }
  match s.sgu.shift with
  | .unknown =>
    match onlyGear s with
    | none => s
    | some g => takePending (raise .gearSettled .spindle g.number (enterSettled (some g) s))
  | .settled => if gearLostCond s then takeGearLost s else s
  | .awaitPermit | .stopping | .shifting | .creeping | .confirming | .retryPause | .failed => s

/-! ## Range requests -/

/-- Purge wait set, or a shift in a state from AWAIT_PERMIT to RETRY_PAUSE (R58, R73). -/
def shiftUnderWay (s : State) : Bool :=
  s.sgu.purgeWait ||
    match s.sgu.shift with
    | .awaitPermit | .stopping | .shifting | .creeping | .confirming | .retryPause => true
    | .settled | .failed | .unknown => false

/-- A new request for range `r` (R58). -/
def newRequest (r : Gear) (s : State) : State :=
  if s.isValid .gear = false then s
  else if shiftUnderWay s then
    s.modSgu fun g => { g with pendingTarget := if g.target = some r then none else some r }
  else
    match s.sgu.shift with
    | .settled => if s.sgu.current = some r then s else startShift r s
    | .unknown => s.modSgu fun g => { g with pendingTarget := some r }
    | .failed | .awaitPermit | .stopping | .shifting | .creeping | .confirming | .retryPause => s

/-- The range request of a command frame (R58): a value above 5 is taken as 0. -/
def rangeRequest (value : Nat) (s : State) : State :=
  let v := if value ≤ 5 then value else 0
  let last := s.sgu.lastRequest
  let s := s.modSgu fun g => { g with lastRequest := v }
  match Gear.ofNumber v with
  | none => s
  | some r => if v = last then s else newRequest r s

/-! ## Drive frames -/

/-- The spindle slot of a command frame. -/
structure SpindleCmd where
  slot : SpindleSlot
  request : Nat
deriving DecidableEq, Repr

/-- The station 6 enable of a frame (R55). With the stopping mark set, no shift from STOPPING on, and the enable of the
slot clear, the list of R55 is followed and the enable is withdrawn, though R55 goes on to say that it stays forwarded
while the mark stands (model's choice, log 62). -/
def spindleEnable (s : State) : Bool :=
  let bridge :=
    match s.fsw.state with
    | .running => true
    | .linkLost => s.sgu.enableFwd
    | .standby => s.sgu.stopping
    | .reset | .loading => false
  let wanted :=
    match s.sgu.shift with
    | .stopping | .shifting | .creeping | .confirming | .retryPause => true
    | .settled | .awaitPermit | .failed | .unknown => s.sgu.slot.enable
  bridge && s.isValid .gear && s.sgu.fault.isNone && s.sgu.returned && wanted

/-- The creep demand (R64). -/
def creepDemand (s : State) : Int :=
  let speed :=
    match s.sgu.target with
    | none => 0
    | some g =>
      match rangeRec s g with
      | none => 0
      | some r => r.creep
  match s.sgu.creepDir with
  | .positive => speed
  | .negative => -speed

/-- The motor speed demand and SPEED_LIMITED of a frame whose station 6 enable is `enable` (R53, R54, R64). A shift in
CREEPING in STANDBY with the stopping mark set keeps its creep demand: R54 excepts CREEPING, where R55 and R71 say that the
demand is 0 (model's choice, log 57). -/
def motorDemand (s : State) (enable : Bool) : Int × Bool :=
  if s.pdu.spindleStop || s.sgu.fault.isSome || !enable then (0, false)
  else if s.sgu.shift = .creeping then (creepDemand s, false)
  else if s.sgu.slot.enable && s.perms.spindleRun && decide (s.fsw.state = .running) then
    match settledRange s with
    | none => (0, false)
    | some r => rangeDemand r s.cfg.gear.motorMax s.sgu.slot
  else (0, false)

/-- R61: in AWAIT_PERMIT the GEAR_SHIFT permission is read in each drive frame. -/
def awaitRead (s : State) : State :=
  if s.sgu.shift = .awaitPermit ∧ s.perms.gearShift then enterStopping s else s

/-- The SGU in one drive frame (R52); a purge request handed over in it is answered after its part (log 18). -/
def spindleFrame (cmd : Option SpindleCmd) (s : State) : State :=
  let s := match cmd with
    | none => s
    | some c => rangeRequest c.request (s.modSgu fun g => { g with slot := c.slot })
  let s := awaitRead (ileMay s)
  let enable := spindleEnable s
  let d := motorDemand s enable
  answerPurge (s.modSgu fun g => { g with enableFwd := enable, demand := d.1, speedLimited := d.2 })

/-! ## Station 6 -/

/-- Drive status of a station 6 return (R57). -/
def spindleDriveStatus (status : Nat) (code : Byte) (s : State) : State :=
  if status = 3 then
    if s.sgu.driveFaultMem then s
    else raiseSpindleFault .driveFault code 0 (s.modSgu fun g => { g with driveFaultMem := true })
  else s.modSgu fun g => { g with driveFaultMem := false }

/-- The station 6 part of a return (R56, R57, R62). The stale mark is cleared at once; what echoes show stands until the
window closes (R153, `Sgu.closedStale`). -/
def spindleReturn (actual : Int) (status : Nat) (code : Byte) (s : State) : State :=
  let s := spindleDriveStatus status code
    (s.modSgu fun g => { g with actual := actual, stale := false, returned := true })
  let s :=
    if s.sgu.shift = .stopping ∧ standstill s then
      enterShifting (s.modSgu fun g => { g with stopTimer := none })
    else s
  if standstill s then s.modSgu fun g => { g with stopping := false } else s

/-- CLEAR_FAULTS with scope ALL or SPINDLE (R57, R68). -/
def clearSpindle (s : State) : State :=
  let s := s.modSgu fun g => { g with fault := none, driveFaultMem := false }
  if s.sgu.shift = .failed then
    enterUnknown (s.modSgu fun g => { g with target := none, attempts := 0 })
  else s

/-! ## Table and resets -/

/-- A new gear table: the sensors are tested as they stand (R73). -/
def gearTableActivated (s : State) : State :=
  let before := s.sgu.current
  let s := s.modSgu fun g => { g with target := none, pendingTarget := none, sensorTimer := none, attempts := 0 }
  match onlyGear s with
  | some g =>
    let s := enterSettled (some g) s
    if before = some g then s else raise .gearSettled .spindle g.number s
  | none => enterUnknown s

/-- The SGU after a cold reset (R74). -/
def spindleColdReset (s : State) : State := { s with sgu := .reset }

/-- The SGU after a warm reset (R74): a SETTLED record keeps its range and last failure. -/
def spindleWarmReset (s : State) : State :=
  if s.sgu.shift = .settled then
    enterSettled s.sgu.current { s with sgu := { Sgu.reset with lastFailure := s.sgu.lastFailure } }
  else enterUnknown { s with sgu := .reset }

end Sys2Proof.Machine
end

