-- ==== Sys2Proof/Machine/InputsOutputs.lean ====
section
/-! DEFINITION. The Input/Output Unit (chapter 5): input conditioning, events of inputs, outputs and their owners. -/

namespace Sys2Proof.Machine

/-! ## Inputs -/

def inputCfg (s : State) (n : Fin 48) : InputCfg := s.cfg.inputs.inputs[n]

/-- The presented state of a raw level under the polarity of the input (R95). -/
def presented (c : InputCfg) (raw : Bool) : Bool := raw != c.inverted

/-- The event that the class of an input gives to its conditioned change (R97). -/
def inputEvent (n : Fin 48) (s : State) : State :=
  let active := s.input n
  let detail := if active then 1 else 0
  match (inputCfg s n).cls, active with
  | .noticeActive, true | .noticeBoth, _ => raise .inputEdge (.input n) detail s
  | .urgentActive, true => raise .inputUrgent (.input n) detail s
  | .none, _ | .noticeActive, false | .urgentActive, false => s

/-- A conditioned change is handed to every consumer of the input; no consumer needs an order relative to another
(R96). The ILE acts at the end of the event. -/
def conditionedChange (n : Fin 48) (s : State) : State :=
  anyOrder
    [axisInputChange .x n, axisInputChange .y n, axisInputChange .z n, axisInputChange .w n, axisInputChange .b n,
     spindleInputChange n, coolantInputChange n, inputEvent n] s

/-- The conditioned state takes a value; a change is a conditioned change (R95). -/
def takeConditioned (n : Fin 48) (raw active : Bool) (s : State) : State :=
  let old := s.input n
  let s := s.setInput n ⟨raw, active, none⟩
  if active = old then s else conditionedChange n s

/-- A change of the raw level of an input (R95); a level that already stands is no change (log 33). -/
def rawChange (n : Fin 48) (high : Bool) (s : State) : State :=
  let r := s.iou.inputs[n]
  let c := inputCfg s n
  let p := presented c high
  if r.raw = high then s
  else if c.debounce = 0 then takeConditioned n high p s
  else if p = r.active then s.setInput n ⟨high, r.active, none⟩
  else s.setInput n ⟨high, r.active, s.startMs c.debounce⟩

/-- The debounce timer of an input expires (R95). -/
def debounceExpired (n : Fin 48) (s : State) : State :=
  let r := s.iou.inputs[n]
  takeConditioned n r.raw (presented (inputCfg s n) r.raw) s

/-- Every input takes the presented state of its raw level with no debounce wait (R99, R114 steps 1 and 2). -/
def inputsFromRaw (s : State) : State :=
  { s with iou := { s.iou with inputs := s.iou.inputs.mapFinIdx fun i r h =>
      ⟨r.raw, presented (inputCfg s ⟨i, h⟩) r.raw, none⟩ } }

/-- A new inputs table (R114): the changed inputs make conditioned changes, in input number order (log 36). -/
def inputsTableActivated (s : State) : State :=
  let t := inputsFromRaw s
  let changed := (List.finRange 48).filter fun n => decide (s.input n ≠ t.input n)
  changed.foldl (fun u n => conditionedChange n u) t

/-! ## Outputs -/

/-- The level that a block function calls for (R100). -/
def calledLevel (s : State) (n : Fin 32) : Owner → Bool
  | .general => false
  | .clamp a => (s.axis a).clampOut
  | .gearShift =>
    match s.sgu.shift with
    | .shifting | .creeping | .confirming =>
      match s.sgu.target with
      | none => false
      | some g =>
        match rangeRec s g with
        | none => false
        | some r => r.outs.contains n
    | .settled | .awaitPermit | .stopping | .retryPause | .failed | .unknown => false
  | .floodPump => floodPumpOn s
  | .throughPump => throughPumpOn s
  | .airValve => airValveOn s

/-- Every owned output takes the level that its function calls for, in the event of the change (R100). -/
def syncOwned (s : State) : State :=
  { s with iou := { s.iou with outputs := s.iou.outputs.mapFinIdx fun i r h =>
      let o := (s.cfg.outputs[i]).owner
      if o = .general then r else { r with on := calledLevel s ⟨i, h⟩ o } } }

/-- The masks of the general output field (R101), bit n for output n. -/
structure OutputMasks where
  set : BitVec 32
  clear : BitVec 32
  pulse : BitVec 32
deriving DecidableEq, Repr

def raiseIf (b : Bool) (c : Code) (detail : Nat) (s : State) : State := if b then raise c .link detail s else s

/-- The bits of one output act as in the table of R101; each ignored bit raises its notice. -/
def maskOutput (m : OutputMasks) (n : Fin 32) (s : State) : State :=
  let c := s.cfg.outputs[n]
  let r := s.iou.outputs[n]
  let set := m.set.getLsbD n
  let clear := m.clear.getLsbD n
  let pulse := m.pulse.getLsbD n
  if c.owner ≠ .general then raiseIf (set || clear || pulse) .outputOwned n s
  else if c.pulse then
    let s :=
      if clear then s.setOutput n ⟨false, none⟩
      else if pulse then s.setOutput n ⟨true, s.startMs c.length⟩
      else s
    raiseIf set .pulseRefused (n + 256) s
  else
    let s :=
      if clear then s.setOutput n { r with on := false }
      else if set then s.setOutput n { r with on := true }
      else s
    raiseIf pulse .pulseRefused n s

/-- The IOU takes the general output field of a command frame (R101), in output number order; a self-paced frame has
none. -/
def outputFrame (cmd : Option OutputMasks) (s : State) : State :=
  match cmd with
  | none => s
  | some m => (List.finRange 32).foldl (fun u n => maskOutput m n u) s

/-- The pulse timer of an output expires (R102). -/
def pulseExpired (n : Fin 32) (s : State) : State := s.setOutput n ⟨false, none⟩

/-- The link-loss action of every GENERAL output (R103). -/
def linkLossOutputs (s : State) : State :=
  { s with iou := { s.iou with outputs := s.iou.outputs.mapFinIdx fun i r _ =>
      let c := s.cfg.outputs[i]
      if c.owner = .general ∧ c.lossOff then ⟨false, none⟩ else r } }

/-- A new outputs table (R115): an output keeps its level with the same owner and mode, else it is turned off; owned
outputs then take their functions' levels. -/
def outputsTableActivated (old : Vector OutputCfg 32) (s : State) : State :=
  syncOwned { s with iou := { s.iou with outputs := s.iou.outputs.mapFinIdx fun i r _ =>
      let a := old[i]
      let b := s.cfg.outputs[i]
      if a.owner = b.owner ∧ a.pulse = b.pulse then r else ⟨false, none⟩ } }

/-- The outputs at a reset (R104); owned outputs take their levels at the end of the event. -/
def outputsReset (s : State) : State :=
  { s with iou := { s.iou with outputs := Vector.replicate 32 ⟨false, none⟩ } }

end Sys2Proof.Machine
end

