-- ==== Sys2Proof/Machine/Operands.lean ====
section
/-! DEFINITION. Reading the operands of COMMAND_FRAME and DRIVE_RETURN: the link frames, the service request and the
service reply segment (R202, R203). -/

namespace Sys2Proof.Machine

/-! ## The span and the check of a frame (R202) -/

def kindCommand : Byte := 0x11#8
def kindEcho : Byte := 0x12#8
def kindDrive : Byte := 0x21#8
def kindReturn : Byte := 0x22#8

/-- Where the frame length stands and the smallest length of a frame of a kind. A kind that is none of the four is
read with the layout `own` of the port's own kind (log 26). -/
def frameLayout (own : Nat × Nat) (kind : Byte) : Nat × Nat :=
  if kind = kindCommand then (3, 72)
  else if kind = kindEcho then (2, 120)
  else if kind = kindDrive then (2, 42)
  else if kind = kindReturn then (2, 14)
  else own

/-- Test 1 of R143 and R149: the span that the frame length gives lies in the data field, is at least the smallest of
the kind, and its CRC matches its check field. The answer is the frame without padding. -/
def checkedFrame (own : Nat × Nat) (data : List Byte) : Option (List Byte) :=
  let layout := frameLayout own (data.getD 0 0)
  let len := u16At data layout.1
  if layout.1 + 2 ≤ data.length ∧ layout.2 ≤ len ∧ len ≤ data.length ∧
      (crc16 (data.take (len - 2))).toNat = u16At data (len - 2) then some (data.take len)
  else none

/-! ## Command frames -/

/-- A command frame as the FSW hands it out (R146). -/
structure CommandFrame where
  seq : Byte
  run : Bool
  axis : PerAxis AxisCmd
  spindle : SpindleCmd
  coolant : CoolantCmd
  outputs : OutputMasks
  service : List Byte
deriving DecidableEq, Repr

/-- The axis slot of axis `a` (R202). -/
def axisSlotAt (l : List Byte) (a : Axis) : AxisCmd :=
  let o := 6 + 9 * a.index
  { slot :=
      { setpoint := s32At l o, driveEnable := bitAt l (o + 8) 0, clampRequest := bitAt l (o + 8) 1,
        referenced := bitAt l (o + 8) 2 }
    absorb := s32At l (o + 4) }

/-- The fields of a command frame (R202). -/
def commandFields (l : List Byte) : CommandFrame :=
  { seq := l.getD 1 0
    run := bitAt l 2 0
    axis := .ofFn (axisSlotAt l)
    spindle := ⟨⟨u16At l 51, bitAt l 53 0, bitAt l 53 1⟩, byteAt l 54⟩
    coolant := ⟨bitAt l 55 0, bitAt l 55 1, bitAt l 55 2, byteAt l 56, byteAt l 57⟩
    outputs := ⟨BitVec.ofNat 32 (u32At l 58), BitVec.ofNat 32 (u32At l 62), BitVec.ofNat 32 (u32At l 66)⟩
    service := slice l 70 (byteAt l 5) }

/-- The outcome of tests 1 to 3 of R143. -/
inductive CommandTest where
  | checkFails
  | malformed
  | passes (f : CommandFrame)
deriving DecidableEq, Repr

def testCommand (data : List Byte) : CommandTest :=
  match checkedFrame (3, 72) data with
  | none => .checkFails
  | some l =>
    if l.getD 0 0 = kindCommand ∧ l.length = 72 + byteAt l 5 ∧ byteAt l 5 ≤ 48 then .passes (commandFields l)
    else .malformed

/-! ## Drive returns -/

/-- A service reply segment of a drive return (R203). -/
structure Segment where
  tag : Byte
  status : Byte
  result : List Byte
deriving DecidableEq, Repr

/-- A drive return that passes tests 1 to 3 of R149. -/
structure ReturnFrame where
  seq : Byte
  station : Station
  actual : Int
  status : Nat
  code : Byte
  segment : Option Segment
deriving DecidableEq, Repr

/-- The structure that test 2 of R149 asks of a frame of kind RETURN (R202). -/
def returnFormed (l : List Byte) : Bool :=
  let n := byteAt l 11
  decide (l.getD 0 0 = kindReturn) && decide (l.length = 14 + n) &&
    (decide (n = 0) || (decide (3 ≤ n) && decide (n ≤ 43) && decide (byteAt l 14 + 3 = n))) &&
    decide (1 ≤ byteAt l 9) && decide (byteAt l 9 ≤ 3)

def testReturn (data : List Byte) : Option ReturnFrame :=
  match checkedFrame (2, 14) data with
  | none => none
  | some l =>
    match returnFormed l, Station.ofNumber (byteAt l 4) with
    | true, some st => some
        { seq := l.getD 1 0, station := st, actual := s32At l 5, status := byteAt l 9, code := l.getD 10 0
          segment :=
            if byteAt l 11 = 0 then none
            else some ⟨l.getD 12 0, l.getD 13 0, slice l 15 (byteAt l 14)⟩ }
    | _, _ => none

/-! ## Service requests -/

/-- A request as it stands in a service slot of at least four bytes (R203). -/
structure Request where
  station : Byte
  code : Byte
  tag : Byte
  paramLen : Nat
  params : List Byte
deriving DecidableEq, Repr

def requestFields (slot : List Byte) : Request :=
  ⟨slot.getD 0 0, slot.getD 1 0, slot.getD 2 0, byteAt slot 3, slot.drop 4⟩

/-- The pass-through segment of a request (R203). -/
def Request.segment (r : Request) : List Byte := [r.code, r.tag, BitVec.ofNat 8 r.paramLen] ++ r.params

end Sys2Proof.Machine
end

