-- ==== Sys2Proof/Machine/Flags.lean ====
section
/-! DEFINITION. The numbers that frames, replies and event records use for states, sources, codes and statuses, and
the flag bytes built from them (R202, R203, section 11.3). -/

namespace Sys2Proof.Machine

/-- Statuses of bridge replies (R203). -/
inductive ReplyStatus where
  | ok | accepted | unknownRequest | badParameter | notNow | prot | busy | stageOtherTable | checkFailed
  | notChecked | tableAbsent | mailboxFull | noStation | driveTimeout
deriving DecidableEq, Repr

def ReplyStatus.code : ReplyStatus → Byte
  | .ok => 0x00 | .accepted => 0x01 | .unknownRequest => 0x02 | .badParameter => 0x03 | .notNow => 0x04
  | .prot => 0x05 | .busy => 0x06 | .stageOtherTable => 0x07 | .checkFailed => 0x08 | .notChecked => 0x09
  | .tableAbsent => 0x0A | .mailboxFull => 0x0B | .noStation => 0x0C | .driveTimeout => 0x0D

def BridgeState.number : BridgeState → Nat
  | .reset => 0 | .loading => 1 | .standby => 2 | .running => 3 | .linkLost => 4

def Follower.number : Follower → Nat
  | .disabled => 0 | .tracking => 1 | .catchUp => 2 | .holding => 3 | .held => 4

def ClampState.number : ClampState → Nat
  | .free => 0 | .clamping => 1 | .clamped => 2 | .unclamping => 3 | .clampFault => 4

def Shift.number : Shift → Nat
  | .settled => 0 | .awaitPermit => 1 | .stopping => 2 | .shifting => 3 | .creeping => 4 | .confirming => 5
  | .retryPause => 6 | .failed => 7 | .unknown => 8

def CircuitState.number : CircuitState → Nat
  | .off => 0 | .priming => 1 | .running => 2 | .purging => 3 | .faulted => 4

def Increment.number : Increment → Nat
  | .x1 => 0 | .x10 => 1 | .x100 => 2 | .x1000 => 3

def Increment.ofNumber : Nat → Option Increment
  | 0 => some .x1 | 1 => some .x10 | 2 => some .x100 | 3 => some .x1000 | _ => none

/-- Position units per detent (R123). -/
def Increment.units : Increment → Int
  | .x1 => 1 | .x10 => 10 | .x100 => 100 | .x1000 => 1000

/-- Axis selector: 0 OFF, 1 to 5 X to B (R202). -/
def selectorNumber : Option Axis → Nat
  | none => 0
  | some a => a.index + 1

def Status.number : Status → Nat
  | .valid => 0 | .default => 1 | .absent => 2

def StageState.number : StageState → Nat
  | .empty => 0 | .filling => 1 | .checked => 2

def MailState.number : MailState → Nat
  | .free => 0 | .filled => 1 | .sent => 2

def Discard.number : Discard → Nat
  | .marked => 1 | .length => 2 | .check => 3 | .kind => 4 | .field => 5

def JobPhase.number : JobPhase → Nat
  | .erase => 1 | .program => 2 | .verify => 3

/-- Table identifiers (R175). -/
def tableByte : TableId → Byte
  | .identity => 0x01 | .link => 0x02
  | .axisParams .x => 0x10 | .axisParams .y => 0x11 | .axisParams .z => 0x12 | .axisParams .w => 0x13
  | .axisParams .b => 0x14
  | .pitch .x => 0x20 | .pitch .y => 0x21 | .pitch .z => 0x22 | .pitch .w => 0x23 | .pitch .b => 0x24
  | .crossYW => 0x28 | .crossZX => 0x29 | .gear => 0x30 | .coolant => 0x38 | .inputs => 0x40
  | .outputs => 0x41 | .interlock => 0x48 | .pendant => 0x50

def tableOfByte (b : Nat) : Option TableId := tableIds.find? fun id => decide ((tableByte id).toNat = b)

/-- Event codes (section 11.3). -/
def Code.byte : Code → Byte
  | .axisFault => 0x01 | .spindleFault => 0x02 | .gearLost => 0x03 | .gearShiftFailed => 0x04
  | .coolantFault => 0x05 | .inputUrgent => 0x06 | .pendantLostEnabled => 0x07 | .linkLost => 0x08
  | .tableAbsent => 0x09 | .secondFault => 0x41 | .softLimit => 0x42 | .stepLimited => 0x43
  | .handwheelLimit => 0x44 | .shiftWaiting => 0x45 | .gearSettled => 0x46 | .shiftCancelled => 0x47
  | .coolantStopped => 0x48 | .inputEdge => 0x49 | .outputOwned => 0x4A | .pulseRefused => 0x4B | .key => 0x4C
  | .displayUnacked => 0x4D | .storeDone => 0x4E | .storeFailed => 0x4F | .serviceDiscarded => 0x50

/-- Source kind and index (section 11.3). -/
def Source.bytes : Source → List Byte
  | .axis a => [BitVec.ofNat 8 a.index, 0]
  | .spindle => [5, 0]
  | .circuit .flood => [6, 0]
  | .circuit .through => [7, 0]
  | .circuit .air => [8, 0]
  | .pendant => [9, 0]
  | .input n => [10, BitVec.ofNat 8 n]
  | .table id => [11, id]
  | .link => [12, 0]

def optByte (o : Option Byte) : Byte := o.getD 0

/-- The 7 bytes of an event record (section 11.3). -/
def EventRec.bytes (e : EventRec) : List Byte :=
  [e.code.byte, BitVec.ofNat 8 (flagBit e.code.urgent 0 + flagBit e.seq.isSome 1)] ++ e.source.bytes ++
    le16 e.detail ++ [optByte e.seq]

/-- The hold-reason byte (R202). -/
def Holds.byte (h : Holds) : Byte :=
  BitVec.ofNat 8
    (flagBit h.interlock 0 + flagBit h.clamp 1 + flagBit h.coolantLoss 2 + flagBit h.feedHold 3 +
      flagBit h.pendantLost 4 + flagBit h.linkLost 5 + flagBit h.standby 6 + flagBit h.fault 7)

/-- A list of levels as a number, bit n for entry n. -/
def bitsNat : List Bool → Nat
  | [] => 0
  | b :: l => flagBit b 0 + 2 * bitsNat l

end Sys2Proof.Machine
end

