-- ==== Sys2Proof/Machine/TableImages.lean ====
section
/-! DEFINITION. Table images: the checks of STAGE_CHECK and of the power-up load, field by field, and the contents
that a checked image gives to the blocks (R177, R205 and the table rules of each chapter). -/

namespace Sys2Proof.Machine

/-- One field check: where the field stands, how long it is, and whether its value passes. -/
structure FieldCheck where
  offset : Nat
  size : Nat
  ok : Bool
deriving DecidableEq, Repr

/-- The offset of the first field that fails. A field that the image does not wholly hold fails (log 43). -/
def firstFailing (len : Nat) : List FieldCheck → Option Nat
  | [] => none
  | c :: cs => if len < c.offset + c.size ∨ c.ok = false then some c.offset else firstFailing len cs

def inRange (v lo hi : Nat) : Bool := decide (lo ≤ v) && decide (v ≤ hi)

def inSpan (v : Int) : Bool := decide (-span ≤ v) && decide (v ≤ span)

/-- A byte that is an input number. -/
def isInput (l : List Byte) (i : Nat) : Bool := decide (byteAt l i < 48)

/-- A byte that is an input number or 0xFF for none. -/
def isInputOrNone (l : List Byte) (i : Nat) : Bool := isInput l i || decide (byteAt l i = 255)

/-- Two input bytes that are both given differ. -/
def inputsDiffer (l : List Byte) (i j : Nat) : Bool := decide (byteAt l i ≠ byteAt l j) || decide (byteAt l i = 255)

def isYesNo (l : List Byte) (i : Nat) : Bool := decide (byteAt l i ≤ 1)

def yes (l : List Byte) (i : Nat) : Bool := decide (byteAt l i = 1)

def inputAt (l : List Byte) (i : Nat) : Fin 48 := Fin.ofNat 48 (byteAt l i)

def inputOptAt (l : List Byte) (i : Nat) : Option (Fin 48) :=
  if byteAt l i < 48 then some (inputAt l i) else none

/-! ## Header (section 9.2, R177) -/

/-- The fixed entry counts of R175; pitch, cross and interlock images have none. -/
def fixedCount : TableId → Option Nat
  | .identity => some 1 | .link => some 5 | .axisParams _ => some 1 | .gear => some 4 | .coolant => some 32
  | .inputs => some 48 | .outputs => some 32 | .pendant => some 4
  | .pitch _ | .crossYW | .crossZX | .interlock => none

/-- The header check (R177): none when it passes. -/
def headerCheck (id : TableId) (l : List Byte) : Option Nat :=
  let body := u16At l 2
  if l.length < 8 then some l.length
  else if l.getD 0 0 ≠ tableByte id then some 0
  else if byteAt l 1 ≠ 1 then some 1
  else if 2040 < body ∨ l.length ≠ 8 + body then some 2
  else if (crc16 (l.drop 8)).toNat ≠ u16At l 6 then some 6
  else
    match fixedCount id with
    | none => none
    | some n => if u16At l 4 = n then none else some 4

/-! ## Field checks -/

/-- Pitch tables (R18). Which of the two fields of check 5 is named is free (log 44). -/
def pitchChecks (a : Axis) (l : List Byte) : List FieldCheck :=
  let n := u16At l 4
  let x0 := s32At l 8
  let i := u32At l 12
  [⟨4, 2, inRange n 2 256 && decide (u16At l 2 = 8 + 2 * n)⟩, ⟨12, 4, inRange i 1000 10000000⟩] ++
    if a.linear then [⟨8, 4, inSpan x0 && inSpan (x0 + ((n - 1) * i : Nat))⟩]
    else [⟨8, 4, decide (0 ≤ x0) && decide (x0 < 3600000)⟩,
      ⟨if Config.rotaryNamesCount then 4 else 12, 2, decide (n * i = 3600000)⟩]

/-- Cross tables (R19). -/
def crossChecks (l : List Byte) : List FieldCheck :=
  let n := u16At l 4
  let x0 := s32At l 8
  let i := u32At l 12
  [⟨4, 2, inRange n 2 64 && decide (u16At l 2 = 8 + 2 * n)⟩, ⟨12, 4, inRange i 1000 10000000⟩,
    ⟨8, 4, inSpan x0 && inSpan (x0 + ((n - 1) * i : Nat))⟩]

/-- Where the fields of an axis parameter image after the soft window stand; B has no soft window (R205). -/
def axisBase (a : Axis) : Nat := if a.linear then 36 else 28

/-- Axis parameter tables (R48). -/
def axisChecks (a : Axis) (l : List Byte) : List FieldCheck :=
  let b := axisBase a
  let clamp := yes l (b + 10)
  [⟨8, 4, inRange (u32At l 8) 1 100000⟩, ⟨12, 4, inRange (u32At l 12) 1 50000⟩,
    ⟨16, 4, inRange (u32At l 16) 1 50000⟩, ⟨20, 4, inRange (u32At l 20) 1 (u32At l 8)⟩,
    ⟨24, 4, inRange (u32At l 24) 100 2000000⟩] ++
  (if a.linear then
    [⟨28, 4, inSpan (s32At l 28)⟩, ⟨32, 4, inSpan (s32At l 32) && decide (s32At l 28 < s32At l 32)⟩]
  else []) ++
  [⟨b, 4, inRange (u32At l b) 0 500000⟩, ⟨b + 4, 2, inRange (u16At l (b + 4)) 0 10000⟩,
    ⟨b + 6, 2, inRange (u16At l (b + 6)) 0 32767⟩, ⟨b + 8, 2, inRange (u16At l (b + 8)) 1 1000⟩,
    ⟨b + 10, 1, isYesNo l (b + 10)⟩, ⟨b + 11, 1, !clamp || isInput l (b + 11)⟩,
    ⟨b + 12, 1, !clamp || (isInput l (b + 12) && decide (byteAt l (b + 12) ≠ byteAt l (b + 11)))⟩,
    ⟨b + 13, 2, !clamp || inRange (u16At l (b + 13)) 100 10000⟩, ⟨b + 15, 1, isInputOrNone l (b + 15)⟩,
    ⟨b + 16, 1, isInputOrNone l (b + 16) && inputsDiffer l (b + 15) (b + 16)⟩]

/-- Offset of the range record number `k` of a gear image (R205). -/
def rangeOffset (k : Nat) : Nat := 8 + 15 * k

/-- The shift outputs that a range record uses. -/
def shiftOutputs (l : List Byte) (o : Nat) : List Nat := (slice l (o + 12) (byteAt l (o + 11))).map BitVec.toNat

def distinctNats : List Nat → Bool
  | [] => true
  | a :: l => !l.contains a && distinctNats l

/-- One range record of the gear table (R72, fields 1 to 8); `shiftOutputs` is one field (log 43). -/
def rangeChecks (l : List Byte) (k : Nat) : List FieldCheck :=
  let o := rangeOffset k
  [⟨o, 1, isInput l o⟩, ⟨o + 1, 2, inRange (u16At l (o + 1)) 1 40000⟩,
    ⟨o + 3, 2, inRange (u16At l (o + 3)) (u16At l (o + 1)) 40000⟩, ⟨o + 5, 2, inRange (u16At l (o + 5)) 1 1000⟩,
    ⟨o + 7, 2, inRange (u16At l (o + 7)) 1 1000⟩, ⟨o + 9, 2, inRange (u16At l (o + 9)) 10 2000⟩,
    ⟨o + 11, 1, inRange (byteAt l (o + 11)) 1 3⟩,
    ⟨o + 12, 3, (shiftOutputs l o).all (· < 32) && distinctNats (shiftOutputs l o)⟩]

/-- Gear table (R72). -/
def gearChecks (l : List Byte) : List FieldCheck :=
  let creep := [u16At l 17, u16At l 32, u16At l 47, u16At l 62]
  let sensors := [byteAt l 8, byteAt l 23, byteAt l 38, byteAt l 53, byteAt l 68]
  rangeChecks l 0 ++ rangeChecks l 1 ++ rangeChecks l 2 ++ rangeChecks l 3 ++
  [⟨68, 1, isInput l 68 && distinctNats sensors⟩,
    ⟨69, 2, inRange (u16At l 69) 1 60000 && creep.all (· ≤ u16At l 69)⟩, ⟨71, 2, inRange (u16At l 71) 1 1000⟩,
    ⟨73, 1, inRange (byteAt l 73) 1 30⟩, ⟨74, 2, inRange (u16At l 74) 50 2000⟩,
    ⟨76, 2, inRange (u16At l 76) 50 1000⟩,
    ⟨78, 2, inRange (u16At l 78) 500 10000 && decide (u16At l 74 < u16At l 78)⟩,
    ⟨80, 1, inRange (byteAt l 80) 1 7⟩, ⟨81, 2, inRange (u16At l 81) 10 500⟩,
    ⟨83, 2, inRange (u16At l 83) 100 2000⟩]

/-- A pressure switch: an input, or none where the circuit allows none. -/
def isSwitch (l : List Byte) (i : Nat) (required : Bool) : Bool := isInput l i || (!required && decide (byteAt l i = 255))

/-- Coolant table (R91). A switch that repeats an earlier one fails at the later field (log 43). -/
def coolantChecks (l : List Byte) : List FieldCheck :=
  [⟨8, 1, isYesNo l 8⟩, ⟨9, 1, isSwitch l 9 (yes l 8)⟩, ⟨10, 2, inRange (u16At l 10) 200 10000⟩,
    ⟨12, 2, inRange (u16At l 12) 0 2000⟩,
    ⟨14, 1, isYesNo l 14⟩, ⟨15, 1, isSwitch l 15 (yes l 14) && inputsDiffer l 9 15⟩,
    ⟨16, 2, inRange (u16At l 16) 200 10000⟩, ⟨18, 2, inRange (u16At l 18) 0 2000⟩,
    ⟨20, 2, inRange (u16At l 20) 500 20000⟩, ⟨22, 2, inRange (u16At l 22) 0 40000⟩, ⟨24, 1, isYesNo l 24⟩,
    ⟨25, 1, decide (byteAt l 25 < 32)⟩,
    ⟨26, 1, isYesNo l 26⟩, ⟨27, 1, isInputOrNone l 27 && inputsDiffer l 9 27 && inputsDiffer l 15 27⟩,
    ⟨28, 2, inRange (u16At l 28) 200 10000⟩, ⟨30, 2, inRange (u16At l 30) 0 2000⟩,
    ⟨32, 1, isInputOrNone l 32 && inputsDiffer l 9 32 && inputsDiffer l 15 32 && inputsDiffer l 27 32⟩,
    ⟨33, 2, true⟩, ⟨35, 2, true⟩, ⟨37, 16, true⟩, ⟨53, 16, true⟩]

/-- Inputs table (R111). -/
def inputsChecks (l : List Byte) : List FieldCheck :=
  ⟨8, 1, isInput l 8⟩ :: (List.range 48).flatMap fun n =>
    let o := 9 + 3 * n
    [⟨o, 1, decide (byteAt l o ≤ 1)⟩, ⟨o + 1, 1, true⟩, ⟨o + 2, 1, decide (byteAt l (o + 2) ≤ 3)⟩]

/-- Owner numbers that may stand on one output only (R112). -/
def soleOwner (v : Nat) : Bool := decide (v ≠ 0) && decide (v ≠ 6)

/-- Outputs table (R112). -/
def outputsChecks (l : List Byte) : List FieldCheck :=
  (List.range 32).flatMap fun n =>
    let o := 8 + 4 * n
    let owner := byteAt l o
    let again := soleOwner owner && (List.range n).any fun m => decide (byteAt l (8 + 4 * m) = owner)
    [⟨o, 1, decide (owner ≤ 9) && !again⟩,
      ⟨o + 1, 1, decide (byteAt l (o + 1) ≤ 1) && (decide (owner = 0) || decide (byteAt l (o + 1) = 0))⟩,
      ⟨o + 2, 1, decide (1 ≤ byteAt l (o + 2))⟩, ⟨o + 3, 1, decide (byteAt l (o + 3) ≤ 1)⟩]

/-- The condition that a kind and an index name (R106, R205); none when either is out of range. -/
def condOf (kind index : Nat) : Option Cond :=
  match kind with
  | 0 => if h : index < 48 then some (.input ⟨index, h⟩) else none
  | 1 => if index = 0 then some .keySetup else none
  | 2 => if index = 0 then some .pendantEnabled else none
  | 3 => if index = 0 then some .gearSettled else none
  | 4 => (Gear.ofNumber index).map .gearRange
  | 5 => match index with
    | 0 => some (.circuitRunning .flood) | 1 => some (.circuitRunning .through)
    | 2 => some (.circuitRunning .air) | _ => none
  | 6 => (Axis.ofIndex index).map .axisClamped
  | 7 => (Axis.ofIndex index).map .axisReferenced
  | 8 => if index = 0 then some .standstill else none
  | _ => none

/-- Interlock table (R113). -/
def interlockChecks (l : List Byte) : List FieldCheck :=
  let n := u16At l 4
  ⟨4, 2, decide (n ≤ 64) && decide (u16At l 2 = 15 * n)⟩ :: (List.range n).flatMap fun r =>
    let o := 8 + 15 * r
    [⟨o, 1, decide (byteAt l o < 16)⟩, ⟨o + 1, 1, decide (byteAt l (o + 1) ≤ 1)⟩,
      ⟨o + 2, 1, inRange (byteAt l (o + 2)) 1 4⟩] ++
      (List.range (byteAt l (o + 2))).flatMap fun t =>
        let p := o + 3 + 3 * t
        [⟨p, 1, decide (byteAt l p ≤ 8)⟩, ⟨p + 1, 1, (condOf (byteAt l p) (byteAt l (p + 1))).isSome⟩,
          ⟨p + 2, 1, decide (byteAt l (p + 2) ≤ 1)⟩]

/-- Pendant table (R134). -/
def pendantChecks (l : List Byte) : List FieldCheck :=
  [⟨8, 2, inRange (u16At l 8) 1 4095⟩, ⟨10, 1, inRange (byteAt l 10) 4 31⟩, ⟨11, 2, inRange (u16At l 11) 40 1000⟩,
    ⟨13, 2, inRange (u16At l 13) 100 5000⟩]

/-- Link table (R156). -/
def linkChecks (l : List Byte) : List FieldCheck :=
  [⟨8, 2, [250, 500, 1000, 2000, 4000].contains (u16At l 8)⟩, ⟨10, 1, inRange (byteAt l 10) 2 8⟩,
    ⟨11, 1, inRange (byteAt l 11) 1 7⟩, ⟨12, 2, inRange (u16At l 12) 5 500⟩, ⟨14, 2, inRange (u16At l 14) 0 60000⟩]

/-- A character of a text (R131, R191). -/
def printable (b : Byte) : Bool := decide (0x20 ≤ b.toNat) && decide (b.toNat ≤ 0x7E)

/-- Identity table (R191). -/
def identityChecks (l : List Byte) : List FieldCheck :=
  let n := byteAt l 14
  [⟨8, 2, true⟩, ⟨10, 4, decide (u32At l 10 = 0) || decide (u32At l 10 = Config.unitNumber.toNat)⟩,
    ⟨14, 1, decide (n ≤ 32)⟩, ⟨15, n, (slice l 15 n).all printable⟩]

/-- The field checks of each table. -/
def fieldChecks (id : TableId) (l : List Byte) : List FieldCheck :=
  match id with
  | .identity => identityChecks l
  | .link => linkChecks l
  | .axisParams a => axisChecks a l
  | .pitch a => pitchChecks a l
  | .crossYW | .crossZX => crossChecks l
  | .gear => gearChecks l
  | .coolant => coolantChecks l
  | .inputs => inputsChecks l
  | .outputs => outputsChecks l
  | .interlock => interlockChecks l
  | .pendant => pendantChecks l

/-- The whole check of an image of a table (R177): none when it passes, else the offset of the failing field. -/
def checkImage (id : TableId) (l : List Byte) : Option Nat :=
  match headerCheck id l with
  | some o => some o
  | none => firstFailing l.length (fieldChecks id l)

/-! ## Contents of a checked image -/

def errorTableOf (l : List Byte) : ErrorTable :=
  ⟨s32At l 8, u32At l 12, (List.range (u16At l 4)).map fun k => s16At l (16 + 2 * k)⟩

def axisParamsOf (a : Axis) (l : List Byte) : AxisParams :=
  let b := axisBase a
  { vmax := u32At l 8, amax := u32At l 12, dmax := u32At l 16, vsetup := u32At l 20, errorLimit := u32At l 24
    softMin := if a.linear then s32At l 28 else -span
    softMax := if a.linear then s32At l 32 else span
    overlayLimit := u32At l b, backlash := u16At l (b + 4), ceiling := u16At l (b + 6), slew := u16At l (b + 8)
    clamp :=
      if yes l (b + 10) then some ⟨inputAt l (b + 11), inputAt l (b + 12), u16At l (b + 13)⟩ else none
    posLimit := inputOptAt l (b + 15), negLimit := inputOptAt l (b + 16) }

def rangeRecOf (l : List Byte) (k : Nat) : RangeRec :=
  let o := rangeOffset k
  { sensor := inputAt l o, wmin := u16At l (o + 1), wmax := u16At l (o + 3), num := u16At l (o + 5)
    den := u16At l (o + 7), creep := u16At l (o + 9), outs := (shiftOutputs l o).map (Fin.ofNat 32) }

def gearTableOf (l : List Byte) : GearTable :=
  { ranges := some ⟨rangeRecOf l 0, rangeRecOf l 1, rangeRecOf l 2, rangeRecOf l 3, inputAt l 68⟩
    motorMax := u16At l 69, stopThreshold := u16At l 71, stopTimeout := 1000 * byteAt l 73, meshTime := u16At l 74
    creepHalf := u16At l 76, attemptTimeout := u16At l 78, maxAttempts := byteAt l 80, confirmTime := u16At l 81
    retryPause := u16At l 83 }

def coolantTableOf (l : List Byte) : CoolantTable :=
  { circuit :=
      ⟨⟨yes l 8, inputOptAt l 9, u16At l 10, u16At l 12⟩, ⟨yes l 14, inputOptAt l 15, u16At l 16, u16At l 18⟩,
        ⟨yes l 26, inputOptAt l 27, u16At l 28, u16At l 30⟩⟩
    purge := u16At l 20, unionMin := u16At l 22, holdEnabled := yes l 24
    holdMask := .ofFn fun a => bitAt l 25 a.index
    tankLow := inputOptAt l 32, pw0Base := u16At l 33, pw1Base := u16At l 35
    throughDuty := (slice l 37 16).map BitVec.toNat, floodDuty := (slice l 53 16).map BitVec.toNat }

def eventClassOf : Nat → EventClass
  | 1 => .noticeActive | 2 => .noticeBoth | 3 => .urgentActive | _ => .none

def inputsTableOf (l : List Byte) : InputsTable :=
  ⟨some (inputAt l 8), Vector.ofFn fun n : Fin 48 =>
    ⟨yes l (9 + 3 * n), byteAt l (10 + 3 * n), eventClassOf (byteAt l (11 + 3 * n))⟩⟩

def ownerOf : Nat → Owner
  | 1 => .clamp .x | 2 => .clamp .y | 3 => .clamp .z | 4 => .clamp .w | 5 => .clamp .b | 6 => .gearShift
  | 7 => .floodPump | 8 => .throughPump | 9 => .airValve | _ => .general

def outputsTableOf (l : List Byte) : Vector OutputCfg 32 :=
  Vector.ofFn fun n : Fin 32 =>
    ⟨ownerOf (byteAt l (8 + 4 * n)), yes l (9 + 4 * n), 10 * byteAt l (10 + 4 * n), yes l (11 + 4 * n)⟩

def rowOf (l : List Byte) (o : Nat) : Row :=
  { target := perms.getD (byteAt l o) .handwheel
    any := yes l (o + 1)
    terms := (List.range (byteAt l (o + 2))).filterMap fun t =>
      let p := o + 3 + 3 * t
      (condOf (byteAt l p) (byteAt l (p + 1))).map fun c => ⟨c, decide (byteAt l (p + 2) = 0)⟩ }

def interlockOf (l : List Byte) : List Row := (List.range (u16At l 4)).map fun r => rowOf l (8 + 15 * r)

def pendantTableOf (l : List Byte) : PendantTable := ⟨u16At l 8, byteAt l 10, u16At l 11, u16At l 13⟩

def linkTableOf (l : List Byte) : LinkTable := ⟨u16At l 8, byteAt l 10, byteAt l 11, u16At l 12, u16At l 14⟩

def identityOf (l : List Byte) : IdentityTable := ⟨u16At l 8, u32At l 10, slice l 15 (byteAt l 14)⟩

/-- The tables with the contents of an image in the place of one of them. -/
def installTable (id : TableId) (l : List Byte) (t : Tables) : Tables :=
  match id with
  | .identity => { t with identity := identityOf l }
  | .link => { t with link := linkTableOf l }
  | .axisParams a => { t with axis := t.axis.set a (axisParamsOf a l) }
  | .pitch a => { t with pitch := t.pitch.set a (errorTableOf l) }
  | .crossYW => { t with crossYW := errorTableOf l }
  | .crossZX => { t with crossZX := errorTableOf l }
  | .gear => { t with gear := gearTableOf l }
  | .coolant => { t with coolant := coolantTableOf l }
  | .inputs => { t with inputs := inputsTableOf l }
  | .outputs => { t with outputs := outputsTableOf l }
  | .interlock => { t with interlock := interlockOf l }
  | .pendant => { t with pendant := pendantTableOf l }

end Sys2Proof.Machine
end

