-- ==== Sys2Proof/Machine/Pendant.lean ====
section
/-! DEFINITION. The Pendant Unit (chapter 6): line, decoder, STATE reports, latches, LED image, display mailbox and
line restart. -/

namespace Sys2Proof.Machine

/-! ## The line -/

/-- The capacities of the two FIFOs (R117). -/
def rxCapacity : Nat := 32
def txCapacity : Nat := 64

/-- The number of ones of a byte is odd. -/
def oddOnes (b : Byte) : Bool :=
  b.getLsbD 0 ^^ b.getLsbD 1 ^^ b.getLsbD 2 ^^ b.getLsbD 3 ^^ b.getLsbD 4 ^^ b.getLsbD 5 ^^ b.getLsbD 6 ^^ b.getLsbD 7

/-- A completed character with its marks (R118): PARITY for an odd number of ones, BREAK alone for a line low from
start to stop, FRAMING for another low stop bit. -/
def rxByte (data : Byte) (parity stop overrun afterOut : Bool) : RxByte :=
  let brk := decide (data = 0) && !parity && !stop
  let odd := oddOnes data != parity
  { data := data, parity := odd, framing := !stop && !brk, brk := brk, overrun := overrun, afterOut := afterOut }

def RxByte.marked (b : RxByte) : Bool := b.parity || b.framing || b.brk || b.overrun

/-- The receiver completes a character (R118, R119). -/
def receiveChar (data : Byte) (parity stop : Bool) (s : State) : State :=
  let p := s.pdu
  if p.restarting then s
  else if p.rx.length < rxCapacity then
    let rx := p.rx ++ [rxByte data parity stop p.overrun p.mailbox.out]
    s.modPdu fun p =>
      { p with rx := rx, overrun := false, rts := if p.rtsThreshold ≤ rx.length then false else p.rts }
  else s.modPdu fun p => { p with overrun := true }

/-- The check byte of a message (R204). -/
def checkByte (l : List Byte) : Byte := -byteSum l

/-- A whole message: sync, the summed bytes, check (R204). -/
def message (l : List Byte) : List Byte := 0xA5#8 :: l ++ [checkByte l]

def displayMessage (seq : Byte) (text : List Byte) : List Byte :=
  message ([BitVec.ofNat 8 (2 + text.length), 0x44#8, seq] ++ text)

def ledsMessage (count : Byte) (image : BitVec 8) : List Byte := message [3#8, 0x4C#8, count, image]

/-- A waiting LEDS message is placed when the line runs and 6 bytes are free (R120, R130). It carries the LEDS count as it
stands before it is raised, so that the first message carries 0 (model's choice, log 54). -/
def placeLeds (s : State) : State :=
  let p := s.pdu
  if p.ledsPending ∧ p.restarting = false ∧ p.tx.length + 6 ≤ txCapacity then
    s.modPdu fun p =>
      { p with tx := p.tx ++ ledsMessage p.ledsCount p.ledImage, ledsPending := false, ledsCount := p.ledsCount + 1 }
  else s

/-- A waiting DISPLAY message is placed when the pendant is LIVE, the line runs and its bytes are free (R120, R132).
Bytes stored so far were stored before its out mark (R133). -/
def placeDisplay (s : State) : State :=
  let p := s.pdu
  let m := p.mailbox
  if m.state = .filled ∧ p.live ∧ p.restarting = false ∧ p.tx.length + 5 + m.text.length ≤ txCapacity then
    let tx := p.tx ++ displayMessage m.seq m.text
    s.modPdu fun p =>
      { p with
        tx := tx, outLeft := some tx.length, rx := p.rx.map fun b => { b with afterOut := false }
        mailbox := { m with state := .sent, out := false, timer := s.startMs s.cfg.pendant.display } }
  else s

/-- The transmitter starts the next byte when CTS is asserted (R120). -/
def startByte (s : State) : State :=
  let p := s.pdu
  if p.sending = false ∧ p.tx ≠ [] ∧ p.cts then s.modPdu fun p => { p with sending := true } else s

/-! ## LED image -/

def anyAxis (s : State) (g : AxisRec → Bool) : Bool :=
  g s.axes.x || g s.axes.y || g s.axes.z || g s.axes.w || g s.axes.b

def anyCircuit (s : State) (st : CircuitState) : Bool :=
  decide (s.clu.circuit.flood.state = st) || decide (s.clu.circuit.through.state = st) ||
    decide (s.clu.circuit.air.state = st)

/-- LED 7: a fault stands (R130). -/
def faultLed (s : State) : Bool :=
  anyAxis s (fun r => r.fault.isSome || decide (r.clamp = .clampFault)) || s.sgu.fault.isSome ||
    anyCircuit s .faulted || decide (s.sgu.shift = .failed)

/-- The LED image for the state as it stands (R130). -/
def ledImage (s : State) : BitVec 8 :=
  let sel (a : Axis) : Bool := pendantEnabled s && decide (s.pdu.axisSel = some a)
  BitVec.ofNat 8 (bitsNat [sel .x, sel .y, sel .z, sel .w, sel .b, anyAxis s (fun r => r.holds.any),
    anyCircuit s .running, faultLed s])

/-- The image is formed again; a new one sets LEDS pending (R130). -/
def formLeds (s : State) : State :=
  let i := ledImage s
  if i = s.pdu.ledImage then s else s.modPdu fun p => { p with ledImage := i, ledsPending := true }

/-! ## The mailbox -/

/-- A SENT mailbox is freed with DISPLAY_UNACKED (R133). -/
def unackMailbox (offset : Nat) (s : State) : State :=
  let m := s.pdu.mailbox
  if m.state = .sent then
    raise .displayUnacked .pendant (m.seq.toNat + offset)
      (s.modMail fun m => { m with state := .free, text := [], timer := none })
  else s

/-- A display-ack is tested against the mailbox (R133). -/
def displayAck (ack : Byte) (afterOut : Bool) (s : State) : State :=
  let m := s.pdu.mailbox
  if m.state = .sent ∧ ack = m.seq ∧ m.out ∧ afterOut then
    s.modMail fun m => { m with state := .free, text := [], timer := none }
  else s

/-! ## Loss, latches, keys -/

/-- PENDANT_LOST is removed from all axes and the lost mark is cleared (R126). -/
def clearPendantLost (s : State) : State :=
  (s.modAxes fun r => { r with holds := { r.holds with pendantLost := false } }).modPdu
    fun p => { p with lost := false }

/-- The pendant becomes ABSENT (R125); `timeout` says that the pendant timer has expired, so that a held enable
places PENDANT_LOST (R126) and a SENT mailbox is freed. -/
def pendantAbsent (timeout : Bool) (s : State) : State :=
  let held := s.pdu.enable
  let detail := match s.pdu.axisSel with
    | none => 5
    | some a => a.index
  let s := s.modPdu fun p => { p with live := false, pendantTimer := none, enable := false, lastSeq := none }
  if timeout then
    let s :=
      if held then
        raise .pendantLostEnabled .pendant detail
          ((s.modAxes fun r => { r with holds := { r.holds with pendantLost := true } }).modPdu
            fun p => { p with lost := true })
      else s
    unackMailbox 256 s
  else s

/-- The FEED_HOLD latch and its hold on all five axes (R129). -/
def setFeedHold (v : Bool) (s : State) : State :=
  (s.modAxes fun r => { r with holds := { r.holds with feedHold := v } }).modPdu fun p => { p with feedHold := v }

/-- The COOLANT_STOP latch is set; running circuits stop in that event (R129, R87). -/
def setCoolantStop (s : State) : State :=
  if s.pdu.coolantStop then s else stopAllNow 1 (s.modPdu fun p => { p with coolantStop := true })

/-- CYCLE START (R128). -/
def cycleStart (s : State) : State :=
  raise .key .pendant 13
    ((setFeedHold false s).modPdu fun p => { p with spindleStop := false, coolantStop := false })

/-- A press edge of key `k` (R128). -/
def pressKey (k : Nat) (s : State) : State :=
  match k with
  | 12 => setFeedHold true s
  | 13 => cycleStart s
  | 14 => setFeedHold true (s.modPdu fun p => { p with spindleStop := true })
  | 15 => setCoolantStop s
  | k => raise .key .pendant k s

/-- The keys in the order in which their press edges act: by number, CYCLE START before the stop keys (R128,
log 25). -/
def keyOrder : List Nat := [0, 1, 2, 3, 4, 5, 6, 7, 8, 9, 10, 11, 13, 12, 14, 15, 16, 17, 18, 19, 20, 21, 22, 23]

/-- A key has a press edge; in the report that makes the pendant LIVE only the stop keys have one (R128). -/
def pressEdge (wasLive : Bool) (old new : BitVec 24) (k : Nat) : Bool :=
  new.getLsbD k && if wasLive then !old.getLsbD k else k == 12 || k == 14 || k == 15

/-- The key bitmap of a report (R128). The press edges act in the order of `keyOrder` (log 25), and so the KEY notices of
the PDU and the COOLANT_STOPPED notices of the CLU, which R194 lets join in either order, join in that order too (model's
choice, log 63). -/
def takeKeys (wasLive : Bool) (new : BitVec 24) (s : State) : State :=
  let old := s.pdu.keys
  let s := s.modPdu fun p => { p with keys := new }
  keyOrder.foldl (fun u k => if pressEdge wasLive old new k then pressKey k u else u) s

/-! ## STATE reports -/

/-- The fields of a STATE report (section 6.3). -/
structure Report where
  seq : Byte
  keys : BitVec 24
  count : U16
  axisSel : Option Axis
  incSel : Increment
  override : Nat
  enable : Bool
  ack : Byte
deriving DecidableEq, Repr

/-- The body of a STATE report, from the kind byte on (R204); none when a field is out of its range (R122). -/
def parseReport (body : List Byte) : Option Report :=
  let sel := byteAt body 7
  let ovr := byteAt body 9
  let en := byteAt body 10
  match Increment.ofNumber (byteAt body 8) with
  | none => none
  | some inc =>
    if 5 < sel ∨ 31 < ovr ∨ 1 < en then none
    else some
      { seq := body.getD 1 0
        keys := BitVec.ofNat 24 (u16At body 2 + 65536 * byteAt body 4)
        count := BitVec.ofNat 16 (u16At body 5)
        axisSel := if sel = 0 then none else Axis.ofIndex (sel - 1)
        incSel := inc, override := ovr, enable := decide (en = 1), ack := body.getD 11 0 }

/-- The handwheel count of a report that is not a repeat (R127). -/
def takeCount (wasLive : Bool) (r : Report) (s : State) : State :=
  let delta := (r.count - s.pdu.base).toInt
  let s' := s.modPdu fun p => { p with base := r.count }
  if wasLive = false ∨ 255 < delta.natAbs ∨ r.enable = false ∨ s.pdu.lost then s'
  else
    match r.axisSel with
    | none => s'
    | some a => s'.modAxis a fun x => { x with pendingInc := x.pendingInc + delta * r.incSel.units }

/-- A valid STATE report (R124); `afterOut` belongs to its check byte (R133). -/
def actReport (r : Report) (afterOut : Bool) (s : State) : State :=
  let timer := s.startMs s.cfg.pendant.timeout
  let wasLive := s.pdu.live
  if wasLive ∧ s.pdu.lastSeq = some r.seq then s.modPdu fun p => { p with pendantTimer := timer }
  else
    let s := s.modPdu fun p =>
      { p with
        live := true, pendantTimer := timer, ledsPending := p.ledsPending || !wasLive
        enable := r.enable, axisSel := r.axisSel, incSel := r.incSel, override := r.override }
    let s := if s.pdu.lost && !r.enable then clearPendantLost s else s
    let s := takeKeys wasLive r.keys (takeCount wasLive r s)
    (displayAck r.ack afterOut s).modPdu fun p => { p with lastSeq := some r.seq }

/-! ## The decoder -/

/-- A message is discarded with its cause (R121, R122). -/
def discardMessage (cause : Discard) (s : State) : State :=
  s.modPdu fun p =>
    { p with decoder := ⟨.hunt, 0, []⟩, discards := p.discards + 1, lastCause := some cause }

/-- The acceptance tests when the check byte is taken (R122). -/
def acceptMessage (check : RxByte) (s : State) : State :=
  let d := s.pdu.decoder
  if byteSum (d.length :: d.body ++ [check.data]) ≠ 0 then discardMessage .check s
  else if d.body.getD 0 0 ≠ 0x53#8 then discardMessage .kind s
  else if d.length ≠ 12 then discardMessage .length s
  else
    match parseReport d.body with
    | none => discardMessage .field s
    | some r => actReport r check.afterOut (s.modPdu fun p => { p with decoder := ⟨.hunt, 0, []⟩ })

/-- One byte through the decoder (R121). -/
def decodeByte (s : State) (b : RxByte) : State :=
  let d := s.pdu.decoder
  match d.state with
  | .hunt =>
    if b.marked = false ∧ b.data = 0xA5#8 then s.modPdu fun p => { p with decoder := ⟨.length, 0, []⟩ } else s
  | .length =>
    if b.marked then discardMessage .marked s
    else if b.data.toNat < 2 ∨ 32 < b.data.toNat then discardMessage .length s
    else s.modPdu fun p => { p with decoder := ⟨.body, b.data, []⟩ }
  | .body =>
    if b.marked then discardMessage .marked s
    else
      let body := d.body ++ [b.data]
      s.modPdu fun p =>
        { p with decoder := ⟨if body.length = d.length.toNat then .check else .body, d.length, body⟩ }
  | .check => if b.marked then discardMessage .marked s else acceptMessage b s

/-- The decode interval (R119): every stored byte goes through the decoder, oldest first. -/
def decodeStored (s : State) : State :=
  if s.pdu.restarting then s
  else
    let bytes := s.pdu.rx
    let s := s.modPdu fun p => { p with rx := [], rts := p.rts || (decide (bytes ≠ []) && decide (0 < p.rtsThreshold)) }
    bytes.foldl decodeByte s

/-! ## Line restart -/

/-- The line restart ends (R135). -/
def endRestart (s : State) : State :=
  s.modPdu fun p =>
    { p with
      tx := [], outLeft := none, drainTimer := none, divisor := s.cfg.pendant.divisor
      rtsThreshold := s.cfg.pendant.threshold, rts := true, restarting := false, ledsPending := true }

/-- A new pendant table restarts the line (R135); `old` was in force before. At ACTIVATE no enable is held (R182). In the
activation that ends the load, where R190 tests no such condition, the pendant can be LIVE with its enable held: then too
PENDANT_LOST is not placed and PENDANT_LOST_ENABLED is not raised, by step 3 of R135 and not by R126 (model's choice,
log 68). -/
def pendantTableActivated (old : PendantTable) (s : State) : State :=
  let drain := s.startMs old.timeout
  let s := s.modPdu fun p =>
    { p with restarting := true, rx := [], overrun := false, rts := false, decoder := ⟨.hunt, 0, []⟩ }
  let s := (unackMailbox 512 (pendantAbsent false s)).modPdu fun p => { p with drainTimer := drain }
  if s.pdu.tx = [] then endRestart s else s

/-- A byte completes on the line (R120, R132, R135). -/
def byteDone (s : State) : State :=
  let p := s.pdu
  if p.sending then
    let out := decide (p.outLeft = some 1)
    let s := s.modPdu fun p =>
      { p with
        tx := p.tx.drop 1, sending := false
        outLeft := if out then none else p.outLeft.map (· - 1)
        mailbox := { p.mailbox with out := p.mailbox.out || out } }
    if s.pdu.restarting ∧ s.pdu.tx = [] then endRestart s else s
  else s

/-- The drain timer expires (R135). A byte in progress completes first, and the restart ends with it (log 24). -/
def drainExpired (s : State) : State :=
  let s := s.modPdu fun p => { p with drainTimer := none }
  if s.pdu.restarting then
    if s.pdu.sending then
      s.modPdu fun p =>
        { p with tx := p.tx.take 1, outLeft := if p.outLeft = some 1 then some 1 else none }
    else endRestart s
  else s

/-! ## POST_DISPLAY -/

/-- POST_DISPLAY (R131): status, result and new state. -/
def postDisplay (params : List Byte) (s : State) : ReplyStatus × List Byte × State :=
  let m := s.pdu.mailbox
  let more := byteAt params 0
  let chars := params.drop 1
  let total := m.compose.length + chars.length
  if params.length < 2 ∨ 40 < params.length ∨ 1 < more then (.badParameter, [], s)
  else if chars.all printable = false then (.badParameter, [], s)
  else if m.state ≠ .free then (.mailboxFull, [], s)
  else if (if more = 1 then 47 else 48) < total then (.badParameter, [], s)
  else if more = 1 then
    (.ok, [BitVec.ofNat 8 total], s.modMail fun m => { m with compose := m.compose ++ chars })
  else
    let seq := m.counter + 1
    (.ok, [seq], s.modMail fun m =>
      { m with state := .filled, text := m.compose ++ chars, seq := seq, compose := [], counter := seq })

/-! ## Resets -/

/-- The PDU after a reset (R137) at the active pendant table. Pins keep their level; the decode interval runs on, and
a warm reset keeps the display sequence counter and the LEDS count. -/
def pendantReset (warm : Bool) (s : State) : State :=
  let p := s.pdu
  { s with pdu :=
    { Pdu.reset with
      divisor := s.cfg.pendant.divisor, rtsThreshold := s.cfg.pendant.threshold, cts := p.cts
      decodeAt := if warm then p.decodeAt else s.now + 2000
      ledsCount := if warm then p.ledsCount else 0
      mailbox := { Pdu.reset.mailbox with counter := if warm then p.mailbox.counter else 0 } } }

end Sys2Proof.Machine
end

