-- ==== Sys2Proof/Machine/Echo.lean ====
section
/-! DEFINITION. Echo frames: the status parts, the event record and the service reply they carry, and their bytes
(R152, R153, R166, R197, R202). -/

namespace Sys2Proof.Machine

/-! ## Status parts -/

/-- The motion status of an axis (R36, R4); the withheld distance is limited to the signed 32 range. -/
def axisStatus (r : AxisRec) : AxisStatus :=
  { overlay := r.overlay, w := sat32 r.w, follower := r.follower, holds := r.holds, clamp := r.clamp
    referenced := r.referenced, uncompensated := r.uncompensated, absorbRefused := r.absorbRefused
    fault := r.fault.map AxisFault.reason, escape := r.escape }

/-- The spindle status (R56). -/
def spindleStatus (s : State) : SpindleStatus :=
  { speed := reportedSpeed s, actual := s.sgu.actual, current := s.sgu.current, shift := s.sgu.shift
    pendingTarget := s.sgu.pendingTarget, speedLimited := s.sgu.speedLimited }

/-- The pendant summary (R136); the enable is shown released while ABSENT. -/
def pendantSummary (p : Pdu) : PendantSummary :=
  { live := p.live, enable := p.live && p.enable, axisSel := p.axisSel, incSel := p.incSel, override := p.override
    feedHold := p.feedHold, spindleStop := p.spindleStop, coolantStop := p.coolantStop }

/-- What an echo shows of the state as it stands (R152). -/
def echoStatus (s : State) : EchoStatus :=
  { bridge := s.fsw.state, gap := s.fsw.gapMark
    axis := .ofFn fun a => axisStatus (s.axis a)
    spindle := spindleStatus s
    circuit := ⟨s.clu.circuit.flood.state, s.clu.circuit.through.state, s.clu.circuit.air.state⟩
    inputs := s.iou.inputs.map InputRec.active
    perms := s.perms
    pendant := pendantSummary s.pdu }

/-! ## Event record and service reply -/

/-- The record that the EVU chooses (R197). -/
def Evu.chosen (v : Evu) : Option EventRec :=
  match v.urgent with
  | e :: _ => some e
  | [] => v.notices.head?

/-- The lists after the chosen record has left (R195, R197). -/
def Evu.afterChoice (v : Evu) : Evu :=
  match v.urgent with
  | _ :: l => { v with urgent := l }
  | [] => { v with notices := v.notices.drop 1, noticeOverflow := v.noticeOverflow && decide (1 < v.notices.length) }

/-- A reply in the form of R203, with its drive-status mark. -/
structure EchoReply where
  bytes : List Byte
  driveStatus : Bool
deriving DecidableEq, Repr

def replyBytes (tag station status : Byte) (result : List Byte) : List Byte :=
  [tag, station, status, BitVec.ofNat 8 result.length] ++ result

/-- The pending bridge reply that goes into the echo of sequence `q` (R166 case 1). -/
def bridgeReplyFor (v : Svr) (q : Byte) : Option BridgeReply :=
  match v.reply with
  | some r => if r.seq = q then some r else none
  | none => none

/-- The reply that the SVR chooses for the echo of sequence `q` (R166). -/
def Svr.chosen (v : Svr) (q : Byte) : Option EchoReply :=
  match bridgeReplyFor v q with
  | some r => some ⟨replyBytes r.tag r.station r.status r.result, false⟩
  | none =>
    match v.queue with
    | d :: _ =>
      some ⟨replyBytes d.tag (BitVec.ofNat 8 d.station.number) d.status d.result, d.driveStatus⟩
    | [] => none

/-- The SVR after the chosen reply has left (R166). -/
def Svr.afterChoice (v : Svr) (q : Byte) : Svr :=
  match bridgeReplyFor v q with
  | some _ => { v with reply := none }
  | none => { v with queue := v.queue.drop 1 }

/-! ## Bytes -/

def axisReasonNumber : Option AxisReason → Nat
  | none => 0
  | some r => r.number

/-- The 17 bytes of an axis status slot (R202). -/
def axisSlotBytes (r : AxisRec) (t : AxisStatus) : List Byte :=
  sle32 r.feedback ++ sle32 t.overlay ++ sle32 t.w ++
    [BitVec.ofNat 8 t.follower.number, t.holds.byte, BitVec.ofNat 8 t.clamp.number,
      BitVec.ofNat 8 (flagBit t.referenced 0 + flagBit t.uncompensated 1 + flagBit t.absorbRefused 2 +
        flagBit r.stale 3 + flagBit t.fault.isSome 4 + flagBit t.escape.isSome 5 +
        flagBit (decide (t.escape = some .negative)) 6),
      BitVec.ofNat 8 (axisReasonNumber t.fault)]

/-- Bytes 91 to 102 of an echo frame. -/
def spindleStatusBytes (stale : Bool) (t : SpindleStatus) : List Byte :=
  sle32 t.speed ++ sle32 t.actual ++
    [BitVec.ofNat 8 (gearNumber t.current), BitVec.ofNat 8 t.shift.number,
      BitVec.ofNat 8 (gearNumber t.pendingTarget), BitVec.ofNat 8 (flagBit t.speedLimited 0 + flagBit stale 1)]

/-- Bytes 103 to 113: circuits, input snapshot and permission set. -/
def machineStatusBytes (t : EchoStatus) : List Byte :=
  let i := bitsNat t.inputs.toList
  [BitVec.ofNat 8 t.circuit.flood.number, BitVec.ofNat 8 t.circuit.through.number,
    BitVec.ofNat 8 t.circuit.air.number] ++ le32 i ++ le16 (i / 4294967296) ++ le16 (bitsNat (perms.map t.perms.get))

/-- Bytes 114 to 117 (R136). -/
def pendantSummaryBytes (p : PendantSummary) : List Byte :=
  [BitVec.ofNat 8 (flagBit p.live 0 + flagBit p.enable 1 + flagBit p.feedHold 2 + flagBit p.spindleStop 3 +
      flagBit p.coolantStop 4),
    BitVec.ofNat 8 (selectorNumber p.axisSel), BitVec.ofNat 8 p.incSel.number, BitVec.ofNat 8 p.override]

/-- A frame is closed by its CRC-16 (R202). -/
def withCheck (l : List Byte) : List Byte := l ++ le16 (crc16 l).toNat

/-- The echo frame of sequence `q` for the state as it stands at assembly and the status kept for it (R202). Feedback and
stale flags are those of the most recent window to have closed, in a cycle's own echo and in LINK_LOST (R152, R153). -/
def echoBytes (q : Byte) (t : EchoStatus) (s : State) : List Byte :=
  let event := match s.evu.chosen with
    | none => []
    | some e => e.bytes
  let choice := s.svr.chosen q
  let reply := match choice with
    | none => []
    | some r => r.bytes
  let drive := match choice with
    | none => false
    | some r => r.driveStatus
  let flags := flagBit t.gap 0 + flagBit s.evu.noticeOverflow 1 + flagBit s.evu.urgentOverflow 2 +
    flagBit s.evu.chosen.isSome 3 + flagBit choice.isSome 4 + flagBit drive 5
  withCheck ([kindEcho, q] ++ le16 (120 + event.length + reply.length) ++
    [BitVec.ofNat 8 t.bridge.number, BitVec.ofNat 8 flags] ++
    axes.flatMap (fun a => axisSlotBytes (s.axis a) (t.axis.get a)) ++
    spindleStatusBytes s.sgu.closedStale t.spindle ++ machineStatusBytes t ++ pendantSummaryBytes t.pendant ++
    event ++ reply)

/-- A frame leaves by a port. -/
def Port.sent (p : Port) (frame : List Byte) : Port := ⟨some frame, p.count + 1⟩

/-- The RESTART whose reply went with the echo of sequence `q` becomes due (R140, R172, log 31). -/
def Restart.afterEcho (r : Restart) (q : Byte) : Restart :=
  match r with
  | .requested p => if p = q then .due else r
  | .none | .due => r

/-- An echo frame is assembled and sent (R152): the chosen record and the chosen reply leave with it. -/
def sendEcho (q : Byte) (t : EchoStatus) (s : State) : State :=
  { s with
    evu := s.evu.afterChoice
    svr := s.svr.afterChoice q
    fsw := { s.fsw with cPort := s.fsw.cPort.sent (echoBytes q t s), restart := s.fsw.restart.afterEcho q } }

end Sys2Proof.Machine
end

