-- ==== Sys2Proof/Machine/TableManager.lean ====
section
/-! DEFINITION. The Table Manager (chapter 9): staging, activation, store jobs on the table store, protection,
freezing and the power-up load. -/

namespace Sys2Proof.Machine

/-- What a bridge request answers: status, result and the state after it. -/
abbrev Answer := ReplyStatus × List Byte × State

/-- A request that is refused changes nothing. -/
def refuse (st : ReplyStatus) (s : State) : Answer := (st, [], s)

/-! ## The table store (R183) -/

def sectorSize : Nat := 2048

/-- Position in catalogue order, which is the table's sector (R175). -/
def tableIndex (id : TableId) : Nat := tableIds.findIdx fun j => decide (j = id)

def protectionSector : Nat := 44
def freezeSector : Nat := 47

def sectorBytes (store : List Host.Cell) (sector : Nat) : List Byte :=
  memReadList erased store (sectorSize * sector) sectorSize

/-- Every byte of a sector is erased (R183). -/
def isBlank (l : List Byte) : Bool := l.all fun b => decide (b = erased)

/-! ## Staging (R178 to R180) -/

/-- The image that STAGE_CHECK and ACTIVATE take. -/
def stagedImage (g : Staging) : List Byte := memReadList 0 g.bytes 0 g.fill

def setStaging (g : Staging) (s : State) : State := s.modTbm fun t => { t with staging := g }

/-- STAGE_WRITE (R178). -/
def stageWrite (params : List Byte) (s : State) : Answer :=
  let g := s.tbm.staging
  let offset := u16At params 1
  let data := params.drop 3
  if params.length < 4 ∨ 40 < params.length then refuse .badParameter s
  else
    match tableOfByte (byteAt params 0) with
    | none => refuse .badParameter s
    | some id =>
      if (s.entry id).freeze then refuse .prot s
      else if g.state ≠ .empty ∧ g.owner ≠ some id then refuse .stageOtherTable s
      else if 2048 < offset + data.length then refuse .badParameter s
      else
        let fill := max g.fill (offset + data.length)
        (.ok, le16 fill, setStaging ⟨.filling, some id, fill, memWriteList 0 g.bytes offset data⟩ s)

/-- STAGE_CHECK (R179). -/
def stageCheck (params : List Byte) (s : State) : Answer :=
  let g := s.tbm.staging
  if params.length ≠ 1 then refuse .badParameter s
  else
    match tableOfByte (byteAt params 0) with
    | none => refuse .badParameter s
    | some id =>
      if g.state ≠ .empty ∧ g.owner ≠ some id then refuse .stageOtherTable s
      else
        match checkImage id (stagedImage g) with
        | none => (.ok, [], setStaging { g with state := .checked } s)
        | some offset =>
          (.checkFailed, le16 offset,
            setStaging { g with state := if g.state = .empty then .empty else .filling } s)

/-- STAGE_DISCARD (R180). -/
def stageDiscard (params : List Byte) (s : State) : Answer :=
  if params.length ≠ 0 then refuse .badParameter s else (.ok, [], setStaging .reset s)

/-! ## Activation (R181, R182) -/

/-- HELD with w = 0, or DISABLED. -/
def axisSettled (r : AxisRec) : Bool :=
  (decide (r.follower = .held) && decide (r.w = 0)) || decide (r.follower = .disabled)

/-- HELD or DISABLED. -/
def axisAtRest (r : AxisRec) : Bool := decide (r.follower = .held) || decide (r.follower = .disabled)

def allCircuitsOff (s : State) : Bool :=
  decide (s.clu.circuit.flood.state = .off) && decide (s.clu.circuit.through.state = .off) &&
    decide (s.clu.circuit.air.state = .off)

/-- No purge wait, no shift state from AWAIT_PERMIT to RETRY_PAUSE, and the spindle at standstill. -/
def gearboxAtRest (s : State) : Bool := !shiftUnderWay s && standstill s

def machineAtRest (s : State) : Bool :=
  !anyAxis s (fun r => !axisAtRest r) && gearboxAtRest s && allCircuitsOff s

/-- The conditions on an axis parameter table (R49, R182). -/
def mayChangeAxis (a : Axis) (p : AxisParams) (r : AxisRec) : Bool :=
  axisSettled r &&
    (!r.referenced || !a.linear || (decide (p.softMin ≤ r.f) && decide (r.f ≤ p.softMax))) &&
    decide (r.clamp = .free) && decide (r.overlay.natAbs ≤ p.overlayLimit) &&
    !(r.enableFwd && decide (p.ceiling < r.comp.natAbs))

/-- The output that a table gives to the clamp of an axis. -/
def clampOutputOf (t : Vector OutputCfg 32) (a : Axis) : Option (Fin 32) :=
  (List.finRange 32).find? fun n => decide ((t[n]).owner = .clamp a)

/-- R115: a clamp that is not FREE keeps its output. "A different output, or none" is read against the output of the
active table, so that none in both tables is no change, and an output where there was none is one (model's choice,
log 58). -/
def clampsKept (old new : Vector OutputCfg 32) (s : State) : Bool :=
  axes.all fun a => decide ((s.axis a).clamp = .free) || decide (clampOutputOf old a = clampOutputOf new a)

/-- Check 6 of R181: the machine state allows the table to change to what `new` holds (R182). -/
def mayActivate (id : TableId) (new : Tables) (s : State) : Bool :=
  match id with
  | .axisParams a => mayChangeAxis a (new.axis.get a) (s.axis a)
  | .pitch a => axisSettled (s.axis a)
  | .crossYW => axisSettled (s.axis .y)
  | .crossZX => axisSettled (s.axis .z)
  | .gear => gearboxAtRest s
  | .coolant => allCircuitsOff s
  | .inputs | .interlock => machineAtRest s
  | .outputs => machineAtRest s && clampsKept s.cfg.outputs new.outputs s
  | .pendant => !(s.pdu.live && s.pdu.enable) && !s.pdu.restarting
  | .link => decide (s.fsw.state = .standby)
  | .identity => true

/-- What the blocks do when a table has come into use in place of the one in `old` (R181 step 4). -/
def tableActivated (id : TableId) (old : Tables) (s : State) : State :=
  match id with
  | .axisParams a => axisTableActivated a (old.axis.get a) s
  | .gear => gearTableActivated s
  | .coolant => coolantTableActivated s
  | .inputs => inputsTableActivated s
  | .outputs => outputsTableActivated old.outputs s
  | .pendant => pendantTableActivated old.pendant s
  | .pitch _ | .crossYW | .crossZX | .interlock | .link | .identity => s

/-- The effects of an ACTIVATE that is taken (R181). -/
def activateTaken (id : TableId) (image : List Byte) (s : State) : State :=
  let old := s.cfg
  let s := s.modEntry id fun e => { e with status := .valid, image := image }
  ileEval (tableActivated id old { setStaging .reset s with cfg := installTable id image old })

/-- ACTIVATE (R181). -/
def activate (params : List Byte) (s : State) : Answer :=
  let g := s.tbm.staging
  if params.length ≠ 1 then refuse .badParameter s
  else
    match tableOfByte (byteAt params 0) with
    | none => refuse .badParameter s
    | some id =>
      let image := stagedImage g
      if (s.entry id).freeze then refuse .prot s
      else if (s.entry id).running then refuse .busy s
      else if g.state ≠ .checked ∨ g.owner ≠ some id then refuse .notChecked s
      else if mayActivate id (installTable id image s.cfg) s = false then refuse .notNow s
      else (.ok, [], activateTaken id image s)

/-! ## Reading (R168) -/

/-- READ_TABLE (R168). -/
def readTable (params : List Byte) (s : State) : Answer :=
  let offset := u16At params 1
  let n := byteAt params 3
  if params.length ≠ 4 then refuse .badParameter s
  else
    match tableOfByte (byteAt params 0) with
    | none => refuse .badParameter s
    | some id =>
      let e := s.entry id
      if n < 1 ∨ 32 < n then refuse .badParameter s
      else if e.status ≠ .valid then refuse .tableAbsent s
      else if e.image.length < offset + n then refuse .badParameter s
      else (.ok, slice e.image offset n, s)

/-! ## Store jobs (R184 to R188) -/

def setJob (j : Option Job) (s : State) : State := s.modTbm fun t => { t with job := j }

def setStore (m : List Host.Cell) (s : State) : State := s.modTbm fun t => { t with store := m }

/-- The bounds of the phases in ms (R185). -/
def phaseBound (p : JobPhase) (s : State) : Timer :=
  match p with
  | .erase => s.startMs 200
  | .program => s.startMs 300
  | .verify => none

/-- The sector of a job (R183). -/
def Job.sector (j : Job) : Nat :=
  match j.kind with
  | .table => tableIndex j.table
  | .protection => protectionSector
  | .freeze => freezeSector

/-- The offset in its sector at which a job programs its bytes. -/
def Job.offset (j : Job) : Nat :=
  match j.kind with
  | .table | .protection => 0
  | .freeze => tableIndex j.table

/-- The address of the first byte of a job's sector. -/
def Job.address (j : Job) : Nat := sectorSize * j.sector

/-- A job starts for a table (R184). -/
def startJob (kind : JobKind) (id : TableId) (phase : JobPhase) (image : List Byte) (s : State) : State :=
  setJob (some ⟨kind, id, phase, image, phaseBound phase s⟩) (s.modEntry id fun e => { e with running := true })

/-- STORE (R184). -/
def storeTable (params : List Byte) (s : State) : Answer :=
  if params.length ≠ 1 then refuse .badParameter s
  else
    match tableOfByte (byteAt params 0) with
    | none => refuse .badParameter s
    | some id =>
      let e := s.entry id
      if keySetup s = false then refuse .prot s
      else if e.protect ∨ e.freeze then refuse .prot s
      else if e.status ≠ .valid then refuse .tableAbsent s
      else if s.tbm.job.isSome then refuse .busy s
      else (.accepted, [], startJob .table id .erase e.image
        (s.modEntry id fun e => { e with stored := .writing, header := none }))

/-- The protection record as the catalogue holds the marks (R205). -/
def protectionRecord (c : PerTable CatEntry) : List Byte :=
  let marks := tableIds.map fun id => if (c.get id).protect then (1 : Byte) else 0
  marks ++ le16 (crc16 marks).toNat

/-- PROTECT (R187). -/
def protectTable (params : List Byte) (s : State) : Answer :=
  let setting := decide (byteAt params 1 = 1)
  if params.length ≠ 2 ∨ 1 < byteAt params 1 then refuse .badParameter s
  else
    match tableOfByte (byteAt params 0) with
    | none => refuse .badParameter s
    | some id =>
      let e := s.entry id
      if keySetup s = false then refuse .prot s
      else if e.freeze then refuse .prot s
      else if s.tbm.job.isSome then refuse .busy s
      else if e.protect = setting then (.ok, [], s)
      else
        let s := s.modEntry id fun e => { e with protect := setting }
        (.accepted, [], startJob .protection id .erase (protectionRecord s.tbm.cat) s)

/-- FREEZE (R188). -/
def freezeTable (params : List Byte) (s : State) : Answer :=
  if params.length ≠ 1 then refuse .badParameter s
  else
    match tableOfByte (byteAt params 0) with
    | none => refuse .badParameter s
    | some id =>
      let e := s.entry id
      if keySetup s = false then refuse .prot s
      else if e.freeze then refuse .prot s
      else if s.tbm.job.isSome then refuse .busy s
      else if e.stored ≠ .valid then refuse .tableAbsent s
      else if e.status ≠ .valid ∨ e.header ≠ some (e.image.take 8) then refuse .notNow s
      else
        let s := s.modEntry id fun e => { e with freeze := true }
        let s := if s.tbm.staging.owner = some id then setStaging .reset s else s
        (.accepted, [], startJob .freeze id .program [0] s)

/-- The part of a detail that names the kind of a job (R187, R188). -/
def JobKind.detail : JobKind → Nat
  | .table => 0
  | .protection => 256
  | .freeze => 512

/-- A job ends in success (R185, R187, R188). -/
def jobDone (j : Job) (s : State) : State :=
  let s := s.modEntry j.table fun e =>
    match j.kind with
    | .table => { e with running := false, stored := .valid, header := some (j.image.take 8) }
    | .protection | .freeze => { e with running := false }
  let detail := match j.kind with
    | .table => u16At j.image 6
    | .protection | .freeze => j.kind.detail
  raise .storeDone (.table (tableByte j.table)) detail (setJob none s)

/-- A job ends in failure in its phase (R185, R187, R188). -/
def jobFailed (j : Job) (s : State) : State :=
  let s := s.modEntry j.table fun e =>
    match j.kind with
    | .table => { e with running := false, stored := .invalid }
    | .protection | .freeze => { e with running := false }
  raise .storeFailed (.table (tableByte j.table)) (j.phase.number + j.kind.detail) (setJob none s)

/-- The bytes that a job programs, as cells of its sector. -/
def Job.cells (j : Job) : List Host.Cell := j.image.zipIdx.map fun p => (j.offset + p.2, p.1)

/-- The cells of a list that lie in one sector. -/
def inSector (l : List Host.Cell) : List Host.Cell := l.filter fun c => decide (c.1 < sectorSize)

/-- Programming changes an erased byte to any value, and makes no byte that is not erased an erased one (R183). What it
makes of such a byte otherwise is free (log 50); to program the erased value changes nothing. -/
def programByte (old v : Byte) : Byte :=
  if old = erased then v
  else
    let r := Config.programmedOver old v
    if v = erased ∨ r = erased then old else r

/-- What a cell that a program phase left otherwise has come to: any value, but never back to the erased one (R183). -/
def spoiltByte (old v : Byte) : Byte := if v = erased then old else v

/-- The cells with what becomes of each byte of the sector at address `a` of memory `m`. -/
def cellsOver (g : Byte → Byte → Byte) (m : List Host.Cell) (a : Nat) (l : List Host.Cell) : List Host.Cell :=
  l.map fun c => (c.1, g (memRead erased m (a + c.1)) c.2)

/-- The store after the whole of a phase, with the cells `bad` left otherwise (log 30). -/
def storeAfter (j : Job) (bad : List Host.Cell) (m : List Host.Cell) : List Host.Cell :=
  match j.phase with
  | .erase => memWriteCells erased (memClear m j.address sectorSize) j.address (inSector bad)
  | .program => memWriteCells erased m j.address
      (cellsOver programByte m j.address j.cells ++ cellsOver spoiltByte m j.address (inSector bad))
  | .verify => m

/-- The store after a phase that finished only the offsets `done` of its sector (R185, R186, log 30). -/
def storePartial (j : Job) (done : List Nat) (m : List Host.Cell) : List Host.Cell :=
  match j.phase with
  | .erase => memWriteCells erased m j.address (inSector (done.map fun k => (k, erased)))
  | .program => memWriteCells erased m j.address
      (cellsOver programByte m j.address (j.cells.filter fun c => done.contains c.1))
  | .verify => m

/-- The sector read back, with the cells `bad` read otherwise. -/
def readBack (j : Job) (bad : List Host.Cell) (m : List Host.Cell) : List Byte :=
  sectorBytes (memWriteCells erased m j.address (inSector bad)) j.sector

/-- The verify finds what it should (R185, R188). -/
def verified (j : Job) (l : List Byte) : Bool :=
  match j.kind with
  | .table | .protection =>
    decide (l = j.image ++ List.replicate (sectorSize - j.image.length) erased)
  | .freeze => decide (l.getD j.offset erased ≠ erased)

/-- A phase reports its end (R185). -/
def phaseEnd (bad : List Host.Cell) (s : State) : State :=
  match s.tbm.job with
  | none => s
  | some j =>
    let s' := setStore (storeAfter j bad s.tbm.store) s
    match j.phase with
    | .erase => setJob (some { j with phase := .program, bound := phaseBound .program s }) s'
    | .program => setJob (some { j with phase := .verify, bound := none }) s'
    | .verify => if verified j (readBack j bad s.tbm.store) then jobDone j s else jobFailed j s

/-- The bound of a phase runs out (R185). -/
def phaseTimeout (done : List Nat) (s : State) : State :=
  match s.tbm.job with
  | none => s
  | some j => jobFailed j (setStore (storePartial j done s.tbm.store) s)

/-- A cold reset cuts a job off (R186). -/
def storeCutOff (done : List Nat) (t : Tbm) : List Host.Cell :=
  match t.job with
  | none => t.store
  | some j => storePartial j done t.store

/-! ## Power-up load (R189, R190) -/

/-- The image that a sector holds: the header and the body length that it gives. -/
def sectorImage (l : List Byte) : List Byte := l.take (8 + u16At l 2)

/-- One table sector is classified (R189). -/
def loadTable (id : TableId) (s : State) : State :=
  let l := sectorBytes s.tbm.store (tableIndex id)
  let image := sectorImage l
  if isBlank l then s.modEntry id fun e => { e with status := .default, image := [], stored := .blank, header := none }
  else
    match checkImage id image with
    | none => s.modEntry id fun e =>
        { e with status := .valid, image := image, stored := .valid, header := some (image.take 8) }
    | some offset =>
      raise .tableAbsent (.table (tableByte id)) offset
        (s.modEntry id fun e => { e with status := .absent, image := [], stored := .invalid, header := none })

/-- The protect mark of every table. -/
def setProtect (g : TableId → Bool) (s : State) : State :=
  tableIds.foldl (fun s id => s.modEntry id fun e => { e with protect := g id }) s

/-- The protection record, sector 44 (R190). -/
def loadProtection (s : State) : State :=
  let l := sectorBytes s.tbm.store protectionSector
  if isBlank l then setProtect (fun _ => false) s
  else if (crc16 (l.take 20)).toNat = u16At l 20 then setProtect (fun id => decide (byteAt l (tableIndex id) ≠ 0)) s
  else raise .tableAbsent (.table 0) 44 (setProtect (fun _ => true) s)

/-- The freeze record, sector 47 (R190). -/
def loadFreeze (s : State) : State :=
  let l := sectorBytes s.tbm.store freezeSector
  tableIds.foldl
    (fun s id => s.modEntry id fun e => { e with freeze := decide (l.getD (tableIndex id) erased ≠ erased) }) s

/-- The store is read: 20 table sectors in catalogue order, then the two records. -/
def loadStore (s : State) : State := loadFreeze (loadProtection (tableIds.foldl (fun s id => loadTable id s) s))

/-- The contents that the load leaves active: the image of every VALID table, the default of the others (R176). -/
def loadedTables (c : PerTable CatEntry) : Tables :=
  tableIds.foldl (fun t id => if (c.get id).status = .valid then installTable id (c.get id).image t else t) .default

/-- The activation that ends the load (R190). The inputs table comes into use first, so that the new conditioned
states are in force before the other blocks take their tables and test their inputs; clamps, limits and the gear record
follow, and the outputs come last (log 45). So the records of the IOU's inputs join the event lists before those of the axes
and of the gear record, where R194 lets either join first (model's choice, log 67). The line restart places no PENDANT_LOST even
if the pendant is LIVE with its enable held (model's choice, log 68). -/
def activateLoaded (s : State) : State :=
  let old := s.cfg
  let new := loadedTables s.tbm.cat
  let s := inputsTableActivated { s with cfg := { old with inputs := new.inputs } }
  let axis (a : Axis) (s : State) : State := axisTableActivated a (old.axis.get a) s
  let s := anyOrder [axis .x, axis .y, axis .z, axis .w, axis .b, gearTableActivated] { s with cfg := new }
  pendantTableActivated old.pendant (outputsTableActivated old.outputs (coolantTableActivated s))

end Sys2Proof.Machine
end

