-- ==== Sys2Proof/Machine/Service.lean ====
section
/-! DEFINITION. The Service Responder (chapter 8): the service slot, pass-through, broadcast, and the bridge's own
requests. -/

namespace Sys2Proof.Machine

/-! ## DESCRIBE (R167, R203) -/

/-- Bytes 6 and 7 of an image header, the body CRC. -/
def imageCrc (e : CatEntry) : Nat := if e.status = .valid then u16At e.image 6 else 0

def describeIdentity (s : State) : List Byte :=
  let e := s.entry .identity
  [Config.revision] ++ le32 Config.unitNumber.toNat ++ [BitVec.ofNat 8 e.status.number] ++ le16 (imageCrc e)

def describeCatalogue (s : State) : List Byte :=
  let owner : Byte := match s.tbm.staging.owner with
    | none => 0
    | some id => tableByte id
  (tableIds.map fun id =>
    let e := s.entry id
    BitVec.ofNat 8 (e.status.number + flagBit e.protect 2 + flagBit e.freeze 3 + flagBit e.running 4)) ++
    [BitVec.ofNat 8 s.tbm.staging.state.number, owner]

def describeGear (s : State) : List Byte :=
  let g := s.sgu
  let failure := match g.lastFailure with
    | none => 0
    | some f => f.number
  let fault := match g.fault with
    | none => (0, 0)
    | some f => (f.reason.number, if f.reason = SpindleReason.driveFault then f.code.toNat else 0)
  ([gearNumber g.current, g.shift.number,
    flagBit g.purgeWait 0 + flagBit g.target.isSome 1 + flagBit g.pendingTarget.isSome 2 +
      flagBit g.lastFailure.isSome 3 + flagBit g.fault.isSome 4,
    gearNumber g.target, gearNumber g.pendingTarget, g.attempts, failure, fault.1, fault.2]).map (BitVec.ofNat 8)

/-- The remaining time of a timer in ms; a part of a millisecond is rounded up or down as is free (log 28). -/
def remainingMs (s : State) (t : Timer) : Nat :=
  match t with
  | none => 0
  | some e =>
    let us := e - s.now
    us / 1000 + if us % 1000 ≠ 0 ∧ Config.remainingRoundsUp us then 1 else 0

/-- Whichever of the three timers of a circuit runs. -/
def circuitTimer (r : CircuitRec) : Timer := r.primeTimer <|> r.lossTimer <|> r.purgeTimer

def describeCircuit (c : Circuit) (s : State) : List Byte :=
  let r := s.circuit c
  let fault := match r.fault with
    | none => 0
    | some f => f.number
  let level := if c = .air then 0 else r.level
  [BitVec.ofNat 8 r.state.number, BitVec.ofNat 8 (level + flagBit r.request 4), BitVec.ofNat 8 fault] ++
    le16 (remainingMs s (circuitTimer r))

def describeCircuits (s : State) : List Byte :=
  describeCircuit .flood s ++ describeCircuit .through s ++ describeCircuit .air s ++
    [BitVec.ofNat 8 (flagBit s.clu.lossHold 0)]

/-- The pendant part. The LED image is formed from the state as the request is taken, so that it shows what the same event
has changed before it (model's choice, log 65). -/
def describePendant (s : State) : List Byte :=
  let p := s.pdu
  let cause := match p.lastCause with
    | none => 0
    | some c => c.number
  [BitVec.ofNat 8 (flagBit p.restarting 0)] ++ le16 p.divisor ++
    [BitVec.ofNat 8 (flagBit p.live 0 + flagBit p.enable 1 + flagBit p.lost 2 + flagBit p.lastSeq.isSome 3)] ++
    [p.keys.setWidth 8, (p.keys >>> 8).setWidth 8, (p.keys >>> 16).setWidth 8, optByte p.lastSeq] ++
    le16 p.discards.toNat ++
    [BitVec.ofNat 8 cause, BitVec.ofNat 8 p.mailbox.state.number, p.mailbox.seq,
      BitVec.ofNat 8 p.mailbox.compose.length, ledImage s]

def describeLink (s : State) : List Byte :=
  let c := s.fsw.counters
  ([c.accepted, c.check, c.malformed, c.duplicates, c.refused, c.gaps, c.losses, c.discarded].flatMap
    fun n => le16 n.toNat) ++
  (stations.flatMap fun st =>
    let r := s.fsw.stations.get st
    [BitVec.ofNat 8 r.miss, BitVec.ofNat 8 (flagBit r.seen 0 + flagBit r.silent 1)]) ++
  le16 s.cfg.link.period

/-- The six parts in the order of R167, each with its size. -/
def describeParts : List (Nat × (State → List Byte)) :=
  [(8, describeIdentity), (22, describeCatalogue), (9, describeGear), (16, describeCircuits),
    (15, describePendant), (30, describeLink)]

/-- The parts that a selector byte names. -/
def selectedParts (sel : Nat) : List (Nat × (State → List Byte)) :=
  (describeParts.zipIdx.filter fun p => sel.testBit p.2).map Prod.fst

/-- DESCRIBE (R167). -/
def describe (params : List Byte) (s : State) : Answer :=
  let sel := byteAt params 0
  let parts := selectedParts sel
  if params.length ≠ 1 then refuse .badParameter s
  else if sel = 0 ∨ 64 ≤ sel then refuse .badParameter s
  else if 40 < (parts.map Prod.fst).sum then refuse .badParameter s
  else (.ok, parts.flatMap fun p => p.2 s, s)

/-! ## CLEAR_FAULTS (R170, R171) -/

def clearSilent (st : Station) (s : State) : State := s.modStation st fun r => { r with silent := false }

/-- Scope AXIS (R171). -/
def clearAxisScope (a : Axis) (s : State) : State := clearSilent (.axis a) (clearAxis a s)

/-- Scope SPINDLE (R171). -/
def clearSpindleScope (s : State) : State := clearSilent .spindle (clearSpindle s)

/-- Scope EVENTS (R198). -/
def clearEvents (s : State) : State :=
  { s with evu := { s.evu with urgentOverflow := false, noticeOverflow := false } }

/-- Scope ALL (R171). -/
def clearAll (s : State) : State :=
  clearPendantLost (clearCoolant (clearSpindleScope
    (clearAxisScope .b (clearAxisScope .w (clearAxisScope .z (clearAxisScope .y (clearAxisScope .x s)))))))

/-- The action of a scope; none when the scope or its axis is out of range (R170). -/
def clearScope (params : List Byte) : Option (State → State) :=
  if byteAt params 0 = 1 then
    if params.length = 2 then (Axis.ofIndex (byteAt params 1)).map clearAxisScope else none
  else if params.length ≠ 1 then none
  else
    match byteAt params 0 with
    | 0 => some clearAll
    | 2 => some clearSpindleScope
    | 3 => some clearCoolant
    | 4 => some clearPendantLost
    | 5 => some clearEvents
    | _ => none

/-- CLEAR_FAULTS (R170); the ILE evaluates in that event (R171). -/
def clearFaults (params : List Byte) (s : State) : Answer :=
  match clearScope params with
  | none => refuse .badParameter s
  | some g => (.ok, [], ileEval (g s))

/-! ## RESTART (R172) -/

/-- Check 3 of R172: every follower DISABLED, no station 6 enable forwarded, no stopping mark set, period timer stopped. A
request that is taken after the station 6 part of its own frame reads the enable of that frame as the one most recently
forwarded (model's choice, log 66). -/
def bridgeAtRest (s : State) : Bool :=
  !anyAxis s (fun r => decide (r.follower ≠ .disabled)) && !s.sgu.enableFwd && !s.sgu.stopping &&
    s.fsw.periodTimer.isNone

/-- RESTART in the command frame of sequence `q` (R172). -/
def restart (q : Byte) (params : List Byte) (s : State) : Answer :=
  if params.length ≠ 0 then refuse .badParameter s
  else if s.fsw.state ≠ .standby then refuse .notNow s
  else if bridgeAtRest s = false then refuse .notNow s
  else if s.tbm.job.isSome then refuse .busy s
  else (.ok, [], s.modFsw fun f => { f with restart := .requested q })

/-! ## Bridge requests (R165) -/

/-- A request code of the bridge (R203). -/
def bridgeRequest (code : Nat) (q : Byte) (params : List Byte) (s : State) : Option Answer :=
  match code with
  | 0xC0 => some (describe params s)
  | 0xC1 => some (readTable params s)
  | 0xC2 => some (stageWrite params s)
  | 0xC3 => some (stageCheck params s)
  | 0xC4 => some (stageDiscard params s)
  | 0xC5 => some (activate params s)
  | 0xC6 => some (storeTable params s)
  | 0xC7 => some (protectTable params s)
  | 0xC8 => some (freezeTable params s)
  | 0xC9 => some (postDisplay params s)
  | 0xCA => some (clearFaults params s)
  | 0xCB => some (restart q params s)
  | _ => none

/-- The pending bridge reply is set (R160). -/
def setReply (q : Byte) (r : Request) (st : ReplyStatus) (result : List Byte) (s : State) : State :=
  s.modSvr fun v => { v with reply := some ⟨q, r.tag, r.station, st.code, result⟩ }

/-- A request to station 15 (R165). -/
def takeBridgeRequest (q : Byte) (r : Request) (s : State) : State :=
  match bridgeRequest r.code.toNat q r.params s with
  | none => setReply q r .unknownRequest [] s
  | some a => setReply q r a.1 a.2.1 a.2.2

/-! ## Pass-through and broadcast (R161 to R164) -/

/-- A station is busy (R159). -/
def stationBusy (v : Svr) (st : Station) : Bool :=
  decide ((v.pass.get st).phase ≠ .none) || v.queue.any fun d => decide (d.station = st)

/-- A request to a drive station (R161). -/
def passThrough (q : Byte) (st : Station) (r : Request) (s : State) : State :=
  if stationBusy s.svr st || s.svr.broadcast.isSome then setReply q r .busy [] s
  else s.modPass st fun _ => ⟨.awaitingFrame, r.tag, s.cfg.link.passTimeout, none, r.segment⟩

/-- A segment waits for a drive frame. -/
def segmentWaits (v : Svr) : Bool :=
  v.broadcast.isSome || stations.any fun st => decide ((v.pass.get st).phase = .awaitingFrame)

/-- The drive part of a broadcast whose slot has length `len` (R164). -/
def broadcastDrives (len : Nat) (r : Request) (s : State) : State :=
  if segmentWaits s.svr then raise .serviceDiscarded .link len s
  else s.modSvr fun v => { v with broadcast := some r.segment }

/-- The bridge part of a broadcast: the request is carried out without its reply (R164). -/
def broadcastBridge (q : Byte) (r : Request) (s : State) : State :=
  match bridgeRequest r.code.toNat q r.params s with
  | none => s
  | some a => a.2.2

/-- The service slot of an accepted frame of sequence `q` (R160); the two parts of a broadcast need no order (R164). -/
def takeSlot (q : Byte) (slot : List Byte) (s : State) : State :=
  let r := requestFields slot
  if slot.length = 0 then s
  else if slot.length < 4 then raise .serviceDiscarded .link slot.length s
  else if 40 < r.paramLen ∨ 4 + r.paramLen ≠ slot.length then setReply q r .badParameter [] s
  else if r.station = 0 then anyOrder [broadcastBridge q r, broadcastDrives slot.length r] s
  else if r.station = 15 then takeBridgeRequest q r s
  else
    match Station.ofNumber r.station.toNat with
    | some st => passThrough q st r s
    | none => setReply q r .noStation [] s

/-- A drive's reply segment (R162). -/
def driveReply (st : Station) (g : Segment) (s : State) : State :=
  let p := s.svr.pass.get st
  if p.phase = .outstanding ∧ g.tag = p.tag then
    s.modSvr fun v =>
      { v with
        pass := v.pass.set st { p with phase := .none, timer := none }
        queue := v.queue ++ [⟨st, g.tag, g.status, g.result, true⟩] }
  else s

/-- The pass-through timer of a station expires (R163). -/
def passExpired (st : Station) (s : State) : State :=
  let p := s.svr.pass.get st
  s.modSvr fun v =>
    { v with
      pass := v.pass.set st { p with phase := .none, timer := none }
      queue := v.queue ++ [⟨st, p.tag, ReplyStatus.driveTimeout.code, [], false⟩] }

/-- The segment that goes into the place of a station in the next drive frame (R161, R164). -/
def segmentFor (v : Svr) (st : Station) : List Byte :=
  if (v.pass.get st).phase = .awaitingFrame then (v.pass.get st).segment
  else
    match v.broadcast with
    | none => []
    | some g => g

/-- A pass-through record as a drive frame leaves at time `now` (R161). -/
def PassRec.leave (now : Nat) (p : PassRec) : PassRec :=
  if p.phase = .awaitingFrame then
    { p with phase := .outstanding, timer := some (now + 1000 * p.length), segment := [] }
  else p

/-- The segments leave with a drive frame (R161, R164). -/
def segmentsLeave (s : State) : State :=
  let g := PassRec.leave s.now
  s.modSvr fun v =>
    { v with
      pass := ⟨⟨g v.pass.axis.x, g v.pass.axis.y, g v.pass.axis.z, g v.pass.axis.w, g v.pass.axis.b⟩,
        g v.pass.spindle⟩
      broadcast := none }

end Sys2Proof.Machine
end

