-- ==== Sys2Proof/Machine/CyclePath.lean ====
section
/-! DEFINITION. The Frame Switch (chapter 7): acceptance, drive frames, return windows, echoes, bridge states and link
loss. -/

namespace Sys2Proof.Machine

/-! ## Drive frames (R147, R148) -/

/-- Any drive enable is forwarded in the most recent drive frame. -/
def anyEnable (s : State) : Bool := anyAxis s AxisRec.enableFwd || s.sgu.enableFwd

/-- The 6 bytes of a station block (R202). -/
def stationBlock (demand : Int) (enable : Bool) (segment : List Byte) : List Byte :=
  sle32 demand ++ [BitVec.ofNat 8 (flagBit enable 0), BitVec.ofNat 8 segment.length]

/-- Demand and enable of a station (R13, R38, R52). -/
def stationPart (s : State) : Station → Int × Bool
  | .axis a => ((s.axis a).demand, (s.axis a).enableFwd)
  | .spindle => (s.sgu.demand, s.sgu.enableFwd)

/-- The drive frame of sequence `q` from the parts as they stand (R202). -/
def driveBytes (q : Byte) (s : State) : List Byte :=
  let segments := stations.flatMap (segmentFor s.svr)
  withCheck ([kindDrive, q] ++ le16 (42 + segments.length) ++
    stations.flatMap (fun st => stationBlock (stationPart s st).1 (stationPart s st).2 (segmentFor s.svr st)) ++
    segments)

/-- The period timer as a self-paced frame leaves: started again, or stopped in STANDBY when the frame forwards no
enable (R148, R155). -/
def periodAfter (s : State) : Timer :=
  if s.fsw.state = .standby ∧ anyEnable s = false then none else s.startUs s.cfg.link.period

/-- A drive frame of sequence `q` leaves the D-port (R147); `echo` is kept for the echo of a command frame, which stops
the period timer (R148). What acts at the end of the frame acts here. -/
def frameLeaves (q : Byte) (echo : Option EchoStatus) (s : State) : State :=
  let s := { s with
    pubX := ⟨s.axes.x.f, s.axes.x.referenced⟩
    pubW := ⟨s.axes.w.f, s.axes.w.referenced⟩
    fsw := { s.fsw with
      ownSeq := q, window := some ⟨q, .all false, echo⟩, windowTimer := s.startUs s.cfg.link.period
      dPort := s.fsw.dPort.sent (driveBytes q s)
      periodTimer := if echo.isSome then none else periodAfter s } }
  axisFrameEnd .b (axisFrameEnd .w (axisFrameEnd .z (axisFrameEnd .y (axisFrameEnd .x (segmentsLeave s)))))

/-- The slots of a command frame that form a drive frame, or their absence in a self-paced frame. -/
structure Slots where
  axis : PerAxis (Option AxisCmd)
  spindle : Option SpindleCmd
  coolant : Option CoolantCmd
  outputs : Option OutputMasks
deriving DecidableEq, Repr

def Slots.none : Slots := ⟨.all .none, .none, .none, .none⟩

def CommandFrame.slots (c : CommandFrame) : Slots :=
  ⟨.ofFn fun a => some (c.axis.get a), some c.spindle, some c.coolant, some c.outputs⟩

/-- What each block does for a drive frame of sequence `q` (R147); each is followed by an evaluation of the ILE. -/
def frameParts (sl : Slots) (q : Byte) : List (State → State) :=
  [fun s => ileEval (axisFrame .x sl.axis.x q s), fun s => ileEval (axisFrame .y sl.axis.y q s),
    fun s => ileEval (axisFrame .z sl.axis.z q s), fun s => ileEval (axisFrame .w sl.axis.w q s),
    fun s => ileEval (axisFrame .b sl.axis.b q s), fun s => ileEval (spindleFrame sl.spindle s),
    fun s => ileEval (coolantFrame sl.coolant s), outputFrame sl.outputs]

/-- A state with the echo status formed so far. -/
abbrev Formed := State × EchoStatus

/-- An item of the formation: a part of the frame, or the service request (true). -/
def formItem (p : Bool × (State → State)) (x : Formed) : Formed :=
  let s := p.2 x.1
  (s, if p.1 then x.2 else echoStatus s)

/-- Parts and request in a given order. The echo status is that of the last part; a request before it shows in it. -/
def formInOrder (l : List (Bool × (State → State))) (s : State) : Formed :=
  l.foldl (fun x p => formItem p x) (s, echoStatus s)

/-- The parts of a drive frame and the request of the same acceptance, in an order that is free where it matters
(R147, R165, log 9). -/
def formFrame (parts : List (State → State)) (request : State → State) (s : State) : Formed :=
  let items := (true, request) :: parts.map fun g => (false, g)
  let there := formInOrder items s
  if there = formInOrder items.reverse s then there
  else formInOrder (permute s.free items) { s with free := s.free + 1 }

/-- A self-paced drive frame (R148). -/
def selfPacedFrame (s : State) : State :=
  let q := s.fsw.ownSeq + 1
  frameLeaves q none (anyOrder (frameParts .none q) s)

/-! ## Bridge states (R141, R142, R154, R155) -/

/-- The STANDBY hold placed on each axis whose enable was forwarded, and removed again where the follower is HELD
(R142, R155). -/
def placeStandby (s : State) : State :=
  s.modAxes fun r =>
    { r with holds := { r.holds with standby := r.enableFwd && decide (r.follower ≠ .held) } }

/-- The STANDBY hold removed from every axis. -/
def removeStandby (s : State) : State := s.modAxes fun r => { r with holds := { r.holds with standby := false } }

/-- The SGU's stopping mark as the bridge enters STANDBY (R55). -/
def markStopping (s : State) : State := s.modSgu fun g => { g with stopping := g.enableFwd }

/-- RUNNING becomes STANDBY (R142). -/
def toStandby (s : State) : State := markStopping (placeStandby (s.modFsw fun f => { f with state := .standby }))

/-- STANDBY becomes RUNNING (R141). -/
def toRunning (s : State) : State :=
  (removeStandby (s.modFsw fun f => { f with state := .running })).modSgu fun g => { g with stopping := false }

/-- The RUN flag of an accepted frame (R141, R142). -/
def takeRun (run : Bool) (s : State) : State :=
  match s.fsw.state, run with
  | .standby, true => if s.fsw.runRelease then s else toRunning s
  | .standby, false => s.modFsw fun f => { f with runRelease := false }
  | .running, false => toStandby s
  | _, _ => s

/-- LINK_LOST becomes STANDBY (R155). -/
def leaveLinkLost (s : State) : State :=
  let s := s.modFsw fun f => { f with state := .standby, runRelease := true, restTimer := none }
  markStopping (placeStandby (s.modAxes fun r => { r with holds := { r.holds with linkLost := false } }))

/-- The rest condition (R155). -/
def restCondition (s : State) : Bool :=
  !anyAxis s (fun r => !axisAtRest r) && standstill s && decide (s.sgu.shift ≠ .creeping)

/-- The rest condition is tested at the close of a self-paced window in LINK_LOST (R155). -/
def testRest (s : State) : State :=
  if restCondition s then
    if s.fsw.restTimer.isSome then s
    else if s.cfg.link.holdTime = 0 then leaveLinkLost s
    else s.modFsw fun f => { f with restTimer := s.startMs s.cfg.link.holdTime }
  else s.modFsw fun f => { f with restTimer := none }

/-! ## The return window (R149 to R151) -/

/-- The station's owner is told that it is silent (R151). -/
def reportSilent (st : Station) (s : State) : State :=
  let s := s.modStation st fun r => { r with silent := true }
  match st with
  | .axis a => raiseAxisFault a .driveSilent 0 s
  | .spindle => raiseSpindleFault .driveSilent 0 0 s

/-- A station not taken in the window (R150, R151). -/
def missStation (st : Station) (s : State) : State :=
  let s := s.modStation st fun r => { r with miss := min (r.miss + 1) 255 }
  let r := s.fsw.stations.get st
  if s.cfg.link.missLimit < r.miss ∧ r.silent = false ∧ r.seen then reportSilent st s else s

/-- Stale marks and feedback as the window closes (R150, R15, R16); echoes show them until the next close (R153). -/
def markStale (taken : PerStation Bool) (s : State) : State :=
  let upd (t : Bool) (r : AxisRec) : AxisRec :=
    { r with stale := !t || r.uncorrected, feedback := axisFeedback r, uncorrected := false }
  { s with
    axes := ⟨upd taken.axis.x s.axes.x, upd taken.axis.y s.axes.y, upd taken.axis.z s.axes.z,
      upd taken.axis.w s.axes.w, upd taken.axis.b s.axes.b⟩
    sgu := { s.sgu with stale := !taken.spindle, closedStale := !taken.spindle } }

/-- The open window, if any, is closed (R150). The missing stations have different owners (log 7). -/
def closeWindow (s : State) : State :=
  match s.fsw.window with
  | none => s
  | some w =>
    let s := s.modFsw fun f => { f with window := none, windowTimer := none }
    let s := anyOrder ((stations.filter fun st => !w.taken.get st).map missStation) s
    let s := markStale w.taken s
    match w.echo with
    | some t => sendEcho w.seq t s
    | none => if s.fsw.state = .linkLost then testRest s else s

/-- The station is taken in the open window (R149). -/
def takeStation (st : Station) (s : State) : State :=
  (s.modStation st fun r => { r with miss := 0, silent := false, seen := true }).modFsw fun f =>
    { f with window := f.window.map fun w => { w with taken := w.taken.set st true } }

/-- The parts of a taken return go to their owners (R149). -/
def handOver (r : ReturnFrame) (s : State) : State :=
  let s := match r.station with
    | .axis a => axisReturn a r.seq r.actual r.status r.code s
    | .spindle => spindleReturn r.actual r.status r.code s
  match r.segment with
  | none => s
  | some g => driveReply r.station g s

def windowFull (w : Window) : Bool := stations.all fun st => w.taken.get st

/-- A return that passes all five tests (R149, R150). The parts of the last missing station are handed over before the
window closes, so an AXIS_FAULT, SPINDLE_FAULT or SECOND_FAULT that they raise may go in the echo of that close, where R197
also lets the echo be assembled first (model's choice, log 69). -/
def takeReturn (r : ReturnFrame) (s : State) : State :=
  let s := handOver r (takeStation r.station s)
  match s.fsw.window with
  | none => s
  | some w => if windowFull w then closeWindow s else s

/-- Tests 4 and 5 of R149. -/
def returnFits (r : ReturnFrame) (s : State) : Bool :=
  match s.fsw.window with
  | none => false
  | some w => decide (r.seq = w.seq) && !w.taken.get r.station

/-- A return is discarded and counted (R149). -/
def discardReturn (s : State) : State := s.modCounters fun c => { c with discarded := c.discarded + 1 }

/-- A frame at the D-port in a state in which returns are tested (R149). -/
def returnArrives (data : List Byte) (s : State) : State :=
  match testReturn data with
  | none => discardReturn s
  | some r => if returnFits r s then takeReturn r s else discardReturn s

/-! ## Command frames (R143 to R146) -/

/-- R144: the sequence does not follow the last accepted one. -/
def isGap (last : Option Byte) (q : Byte) : Bool :=
  match last with
  | none => false
  | some p => decide (q ≠ p + 1)

/-- R144, R158: acceptance in the FSW record. -/
def acceptSeq (q : Byte) (s : State) : State :=
  let gap := isGap s.fsw.lastSeq q
  (s.modCounters fun c =>
    { c with accepted := c.accepted + 1, gaps := if gap then c.gaps + 1 else c.gaps }).modFsw
    fun f => { f with lastSeq := some q }

/-- An accepted frame starts the link timer (R145). The period timer is stopped as its drive frame leaves, so that the
request of the frame still reads it as it stood (R172 check 3, log 48). The link timer is started before the request of
the frame, so that an ACTIVATE of the link table in it finds the timer running with the old K and period (model's choice,
log 60). -/
def paceFromCommand (s : State) : State :=
  s.modFsw fun f => { f with linkTimer := s.startUs (s.cfg.link.k * s.cfg.link.period) }

/-- The cycle of a frame accepted in STANDBY or RUNNING (R146, R147): the old window is closed first. If the echo that
leaves so carries the reply of a RESTART, the warm reset is due in that event (R140) and nothing more of the frame is
acted on (model's choice, log 47). The link timer is started before the request of the frame and the window timer
after it, so that an ACTIVATE of the link table acts between the two starts (model's choice, log 60). -/
def openCycle (c : CommandFrame) (gap : Bool) (s : State) : State :=
  let s := closeWindow s
  if s.fsw.restart = .due then s
  else
    let s := paceFromCommand (takeRun c.run (s.modFsw fun f => { f with gapMark := gap }))
    let r := formFrame (frameParts c.slots c.seq) (takeSlot c.seq c.service) s
    frameLeaves c.seq (some r.2) r.1

/-- A frame accepted in LINK_LOST: the service slot alone, and an echo at once (R146, R153). Feedback and stale flags are
those that the last window close left (`markStale`). -/
def echoInLinkLost (c : CommandFrame) (gap : Bool) (s : State) : State :=
  let s := ileEval (takeSlot c.seq c.service (s.modFsw fun f => { f with gapMark := gap }))
  sendEcho c.seq (echoStatus s) s

/-- An accepted command frame (R144, R146). -/
def acceptCommand (c : CommandFrame) (s : State) : State :=
  let gap := isGap s.fsw.lastSeq c.seq
  let s := acceptSeq c.seq s
  if s.fsw.state = .linkLost then echoInLinkLost c gap s else openCycle c gap s

/-- Command frames are tested in STANDBY, RUNNING and LINK_LOST, but not while a warm reset is due (R139, R140). -/
def takesCommands (f : Fsw) : Bool :=
  match f.state, f.restart with
  | .standby, .due | .running, .due | .linkLost, .due => false
  | .standby, _ | .running, _ | .linkLost, _ => true
  | .reset, _ | .loading, _ => false

/-- A frame at the C-port (R139, R143). Where command frames are not tested, one that fails test 1 raises no counter:
R158 counts check failures by a test that R143 makes in the other states, and R139 counts only frames that pass (model's
choice, log 61). -/
def commandArrives (data : List Byte) (s : State) : State :=
  if takesCommands s.fsw then
    match testCommand data with
    | .checkFails => s.modCounters fun c => { c with check := c.check + 1 }
    | .malformed => s.modCounters fun c => { c with malformed := c.malformed + 1 }
    | .passes c =>
      if s.fsw.lastSeq = some c.seq then s.modCounters fun c => { c with duplicates := c.duplicates + 1 }
      else acceptCommand c s
  else
    match testCommand data with
    | .checkFails => s
    | .malformed | .passes _ => s.modCounters fun c => { c with refused := c.refused + 1 }

/-! ## Link loss (R154) -/

/-- The bridge enters LINK_LOST (R154). An open window is closed before the first self-paced frame (log 46); a warm
reset that is due, or becomes due by that echo, comes first, so that the link is not lost (R140, log 47). The other
blocks act on the entry before the parts of the frame are formed, so that SHIFT_CANCELLED joins the notices before those
of the frame (model's choice, log 49). The evaluation that the entry and the SGU's cancel call for also comes before
those parts, so that they read the permission set after it (model's choice, log 59). -/
def enterLinkLost (s : State) : State :=
  let left := if s.fsw.state = .running then 1 else 0
  let s := closeWindow s
  if s.fsw.restart = .due then s.modFsw fun f => { f with linkTimer := none }
  else
    let s := (removeStandby s).modFsw fun f => { f with state := .linkLost, linkTimer := none }
    let s := s.modAxes fun r => { r with holds := { r.holds with linkLost := true } }
    let s := (raise .linkLost .link left s).modCounters fun c => { c with losses := c.losses + 1 }
    selfPacedFrame (ileEval (spindleLinkLost (linkLossOutputs s)))

end Sys2Proof.Machine
end

