-- ==== Sys2Proof/Machine/Resets.lean ====
section
/-! DEFINITION. Cold reset, power-up load and warm reset (R139, R140, and the reset rule of each chapter), and the
blocks that follow every event. -/

namespace Sys2Proof.Machine

/-- What follows in the event of every change: the ILE evaluates (R108), owned outputs take their levels (R100), the LED
image is formed (R130), waiting messages are placed and the transmitter starts a byte (R120). A step is one event here: two
STATE reports taken in one decode interval form the image, and evaluate the ILE, once after both, though R124 speaks of each
report (model's choice, log 64). -/
def finish (s : State) : State := startByte (placeDisplay (placeLeds (formLeds (syncOwned (ileEval s)))))

/-- The LED image formed from the state after a reset (R137). -/
def resetLeds (s : State) : State := s.modPdu fun p => { p with ledImage := ledImage s }

/-- The end of the event of a reset (R110, R104, R137). -/
def resetEnd (s : State) : State := resetLeds (syncOwned (ileReset s))

/-- The FSW record after a reset (R139), with the counters and the ports of the model kept. -/
def fswReset (f : Fsw) (st : BridgeState) (c : Counters) : Fsw :=
  { Fsw.reset with state := st, counters := c, cPort := f.cPort, dPort := f.dPort }

/-- The axis records after a reset: clamps from the confirm inputs, and the faults of hard limits that are active (R21,
R50, R44). -/
def axesReset (s : State) : State :=
  let s := { s with axes := .all .reset, pubX := ⟨0, false⟩, pubW := ⟨0, false⟩ }
  let s := axes.foldl (fun s a => clampFromInputs a s) s
  anyOrder (axes.map activeLimits) s

/-- COLD_RESET (R139): every block takes its cold-reset values. The table store keeps what it holds, and a job that ran
is cut off (R186). -/
def coldResetAll (done : List Nat) (s : State) : State :=
  let s := { s with
    fsw := fswReset s.fsw .reset .zero, svr := .reset, evu := .reset, cfg := .default
    tbm := { Tbm.reset with store := storeCutOff done s.tbm } }
  let s := spindleColdReset (axesReset (inputsFromRaw s))
  resetEnd (pendantReset false (outputsReset (coolantReset s)))

/-- WARM_RESET (R140): every block takes its warm-reset values, and the state becomes STANDBY at once. -/
def warmResetAll (s : State) : State :=
  let s := setStaging .reset { s with
    fsw := fswReset s.fsw .standby s.fsw.counters, svr := .reset, evu := .reset }
  let s := spindleWarmReset (axesReset (inputsFromRaw s))
  resetEnd (pendantReset true (outputsReset (coolantReset s)))

/-- The RESET pin is released, or power-on initialisation has completed (R139). -/
def release (s : State) : State := s.modFsw fun f => { f with state := .loading }

/-- The power-up load has completed: its tables are activated, and the state becomes STANDBY (R139, R190). -/
def loadCompletes (s : State) : State :=
  (activateLoaded (loadStore s)).modFsw fun f => { f with state := .standby }

end Sys2Proof.Machine
end

