-- ==== Sys2Proof/Machine/ExecCycle.lean ====
section
/-! DEFINITION. The commands of the bridge as a whole, of the cycle path, of the service slot and of the table store. -/

namespace Sys2Proof.Machine

/-- An event that always takes place. -/
def answer (act : State → State) (s : State) : Host.Outcome State Fault Refusal := .next (finish (act s))

/-- The expiry of a timer: without effect when the timer is stopped (log 2). -/
def answerExpiry (t : Timer) (act : State → State) (s : State) : Host.Outcome State Fault Refusal :=
  .next (onExpiry t (fun u => finish (act u)) s)

/-- COLD_RESET (R139). -/
def execColdReset (done : List Nat) (s : State) : Host.Outcome State Fault Refusal := .next (coldResetAll done s)

/-- RESET_RELEASE (R139); outside RESET nothing is released (log 33). -/
def execResetRelease (s : State) : Host.Outcome State Fault Refusal :=
  if s.fsw.state = .reset then answer release s else .next s

/-- LOAD_END (R190); outside LOADING no load ends (log 33). -/
def execLoadEnd (s : State) : Host.Outcome State Fault Refusal :=
  if s.fsw.state = .loading then answer loadCompletes s else .next s

/-- WARM_RESET (R140), taken in STANDBY once the echo of a RESTART has left (log 31). -/
def execWarmReset (s : State) : Host.Outcome State Fault Refusal :=
  if s.fsw.restart = .due ∧ s.fsw.state = .standby then .next (warmResetAll s) else .next s

/-- COMMAND_FRAME (R139, R143). -/
def execCommandFrame (data : List Byte) (s : State) : Host.Outcome State Fault Refusal :=
  answer (commandArrives data) s

/-- DRIVE_RETURN (R149). -/
def execDriveReturn (data : List Byte) (s : State) : Host.Outcome State Fault Refusal :=
  answer (returnArrives data) s

/-- WINDOW_TIMER_EXPIRY (R150). -/
def execWindowTimerExpiry (s : State) : Host.Outcome State Fault Refusal :=
  answerExpiry s.fsw.windowTimer closeWindow s

/-- The period timer expires: an open window is closed, then a self-paced frame is formed (R148). -/
def periodExpired (s : State) : State :=
  selfPacedFrame (closeWindow (s.modFsw fun f => { f with periodTimer := none }))

/-- PERIOD_TIMER_EXPIRY (R148). -/
def execPeriodTimerExpiry (s : State) : Host.Outcome State Fault Refusal :=
  answerExpiry s.fsw.periodTimer periodExpired s

/-- The link timer expires; it runs in STANDBY and RUNNING alone (R145). -/
def linkExpired (s : State) : State :=
  match s.fsw.state with
  | .standby | .running => enterLinkLost s
  | .reset | .loading | .linkLost => s.modFsw fun f => { f with linkTimer := none }

/-- LINK_TIMER_EXPIRY (R154). -/
def execLinkTimerExpiry (s : State) : Host.Outcome State Fault Refusal :=
  answerExpiry s.fsw.linkTimer linkExpired s

/-- The rest timer expires; it runs in LINK_LOST alone (R155). -/
def restExpired (s : State) : State :=
  match s.fsw.state with
  | .linkLost => leaveLinkLost s
  | .reset | .loading | .standby | .running => s.modFsw fun f => { f with restTimer := none }

/-- REST_TIMER_EXPIRY (R155). -/
def execRestTimerExpiry (s : State) : Host.Outcome State Fault Refusal :=
  answerExpiry s.fsw.restTimer restExpired s

/-- PASS_THROUGH_TIMER_EXPIRY (R163). -/
def execPassThroughTimerExpiry (st : Station) (s : State) : Host.Outcome State Fault Refusal :=
  answerExpiry (s.svr.pass.get st).timer (passExpired st) s

/-- STORE_PHASE_END (R185). -/
def execStorePhaseEnd (bad : List Host.Cell) (s : State) : Host.Outcome State Fault Refusal :=
  answer (phaseEnd bad) s

/-- The bound of the phase of the store job that runs. -/
def jobBound (s : State) : Timer :=
  match s.tbm.job with
  | none => none
  | some j => j.bound

/-- STORE_PHASE_TIMEOUT (R185). -/
def execStorePhaseTimeout (done : List Nat) (s : State) : Host.Outcome State Fault Refusal :=
  answerExpiry (jobBound s) (phaseTimeout done) s

end Sys2Proof.Machine
end

