-- ==== Sys2Proof/Machine/ExecMachine.lean ====
section
/-! DEFINITION. The commands of the inputs, outputs and clamps, of the gear shift and of the coolant. -/

namespace Sys2Proof.Machine

/-! ## Inputs, outputs, clamps -/

/-- INPUT_LEVEL_CHANGE (R95). -/
def execInputLevelChange (n : Fin 48) (high : Bool) (s : State) : Host.Outcome State Fault Refusal :=
  answer (rawChange n high) s

/-- DEBOUNCE_TIMER_EXPIRY (R95). -/
def execDebounceTimerExpiry (n : Fin 48) (s : State) : Host.Outcome State Fault Refusal :=
  answerExpiry (s.iou.inputs[n]).timer (debounceExpired n) s

/-- The clamp timer of an axis expires (R41): CLAMP_FAULT, with the output as it stands. -/
def clampExpired (a : Axis) (s : State) : State :=
  raiseAxisFault a .clampTimeout 0
    (setClampHold a (s.modAxis a fun r => { r with clamp := .clampFault, clampTimer := none }))

/-- CLAMP_TIMER_EXPIRY (R41). -/
def execClampTimerExpiry (a : Axis) (s : State) : Host.Outcome State Fault Refusal :=
  answerExpiry (s.axis a).clampTimer (clampExpired a) s

/-- PULSE_TIMER_EXPIRY (R102). -/
def execPulseTimerExpiry (n : Fin 32) (s : State) : Host.Outcome State Fault Refusal :=
  answerExpiry (s.iou.outputs[n]).timer (pulseExpired n) s

/-! ## Gear shift -/

/-- STOP_TIMER_EXPIRY (R62). -/
def execStopTimerExpiry (s : State) : Host.Outcome State Fault Refusal :=
  answerExpiry s.sgu.stopTimer stopExpired s

/-- MESH_TIMER_EXPIRY (R63). -/
def execMeshTimerExpiry (s : State) : Host.Outcome State Fault Refusal :=
  answerExpiry s.sgu.meshTimer meshExpired s

/-- ATTEMPT_TIMER_EXPIRY (R66). -/
def execAttemptTimerExpiry (s : State) : Host.Outcome State Fault Refusal :=
  answerExpiry s.sgu.attemptTimer attemptExpired s

/-- CREEP_TIMER_EXPIRY (R64). -/
def execCreepTimerExpiry (s : State) : Host.Outcome State Fault Refusal :=
  answerExpiry s.sgu.creepTimer creepExpired s

/-- CONFIRM_TIMER_EXPIRY (R65). -/
def execConfirmTimerExpiry (s : State) : Host.Outcome State Fault Refusal :=
  answerExpiry s.sgu.confirmTimer confirmExpired s

/-- RETRY_TIMER_EXPIRY (R67). -/
def execRetryTimerExpiry (s : State) : Host.Outcome State Fault Refusal :=
  answerExpiry s.sgu.retryTimer retryExpired s

/-- SENSOR_TIMER_EXPIRY (R69). -/
def execSensorTimerExpiry (s : State) : Host.Outcome State Fault Refusal :=
  answerExpiry s.sgu.sensorTimer sensorExpired s

/-! ## Coolant -/

/-- The prime timer of a circuit expires (R79). -/
def primeExpired (c : Circuit) (s : State) : State :=
  if (s.circuit c).state = .priming then enterFaulted c .noPressure s
  else s.modCircuit c fun r => { r with primeTimer := none }

/-- PRIME_TIMER_EXPIRY (R79). -/
def execPrimeTimerExpiry (c : Circuit) (s : State) : Host.Outcome State Fault Refusal :=
  answerExpiry (s.circuit c).primeTimer (primeExpired c) s

/-- The loss timer of a circuit expires (R80). -/
def lossExpired (c : Circuit) (s : State) : State :=
  if (s.circuit c).state = .running then enterFaulted c .pressureLost s
  else s.modCircuit c fun r => { r with lossTimer := none }

/-- LOSS_TIMER_EXPIRY (R80). -/
def execLossTimerExpiry (c : Circuit) (s : State) : Host.Outcome State Fault Refusal :=
  answerExpiry (s.circuit c).lossTimer (lossExpired c) s

/-- The purge timer expires: the air valve goes off and THROUGH is OFF (R83). -/
def purgeExpired (s : State) : State :=
  let s := s.modCircuit .through fun r => { r with purgeTimer := none }
  if (s.circuit .through).state = .purging then
    stageCircuit .through (s.modCircuit .through fun r => { r with state := .off })
  else s

/-- PURGE_TIMER_EXPIRY (R83). -/
def execPurgeTimerExpiry (s : State) : Host.Outcome State Fault Refusal :=
  answerExpiry (s.circuit .through).purgeTimer purgeExpired s

/-- PERIOD_START (R90). -/
def execPeriodStart (ch : Channel) (s : State) : Host.Outcome State Fault Refusal :=
  answer (fun u => u.setPw ch (u.pw ch).periodStart) s

/-- HIGH_PART_END (R89). -/
def execHighPartEnd (ch : Channel) (s : State) : Host.Outcome State Fault Refusal :=
  answer (fun u => u.setPw ch (u.pw ch).highEnd) s

end Sys2Proof.Machine
end

