-- ==== Sys2Proof/Machine/ExecPendant.lean ====
section
/-! DEFINITION. The commands of the pendant line. -/

namespace Sys2Proof.Machine

/-- CHARACTER_RECEIVED (R118). -/
def execCharacterReceived (data : Byte) (parity stop : Bool) (s : State) : Host.Outcome State Fault Refusal :=
  answer (receiveChar data parity stop) s

/-- An expiry of the decode interval: the next one is 2 ms later (R119). -/
def decodeDue (s : State) : State :=
  decodeStored (s.modPdu fun p => { p with decodeAt := p.decodeAt + 2000 })

/-- DECODE_INTERVAL (R119): the interval always runs. -/
def execDecodeInterval (s : State) : Host.Outcome State Fault Refusal :=
  answerExpiry (some s.pdu.decodeAt) decodeDue s

/-- PENDANT_TIMER_EXPIRY (R125). -/
def execPendantTimerExpiry (s : State) : Host.Outcome State Fault Refusal :=
  answerExpiry s.pdu.pendantTimer (pendantAbsent true) s

/-- The display timer expires (R133). -/
def displayExpired (s : State) : State := unackMailbox 0 (s.modMail fun m => { m with timer := none })

/-- DISPLAY_TIMER_EXPIRY (R133). -/
def execDisplayTimerExpiry (s : State) : Host.Outcome State Fault Refusal :=
  answerExpiry s.pdu.mailbox.timer displayExpired s

/-- CTS_CHANGE (R120). -/
def execCtsChange (asserted : Bool) (s : State) : Host.Outcome State Fault Refusal :=
  answer (fun u => u.modPdu fun p => { p with cts := asserted }) s

/-- TRANSMIT_BYTE_DONE (R120). -/
def execTransmitByteDone (s : State) : Host.Outcome State Fault Refusal := answer byteDone s

/-- DRAIN_TIMER_EXPIRY (R135). -/
def execDrainTimerExpiry (s : State) : Host.Outcome State Fault Refusal :=
  answerExpiry s.pdu.drainTimer drainExpired s

end Sys2Proof.Machine
end

