-- ==== Sys2Proof/Machine/Dispatch.lean ====
section
/-! DEFINITION. The meaning of every command: one arm for each constructor of Instr. -/

namespace Sys2Proof.Machine

def exec (i : Instr) (s : State) : Host.Outcome State Fault Refusal :=
  match i with
  | .coldReset done => Sys2Proof.Machine.execColdReset done s
  | .resetRelease => Sys2Proof.Machine.execResetRelease s
  | .loadEnd => Sys2Proof.Machine.execLoadEnd s
  | .warmReset => Sys2Proof.Machine.execWarmReset s
  | .commandFrame data => Sys2Proof.Machine.execCommandFrame data s
  | .windowTimerExpiry => Sys2Proof.Machine.execWindowTimerExpiry s
  | .periodTimerExpiry => Sys2Proof.Machine.execPeriodTimerExpiry s
  | .linkTimerExpiry => Sys2Proof.Machine.execLinkTimerExpiry s
  | .restTimerExpiry => Sys2Proof.Machine.execRestTimerExpiry s
  | .driveReturn data => Sys2Proof.Machine.execDriveReturn data s
  | .passThroughTimerExpiry st => Sys2Proof.Machine.execPassThroughTimerExpiry st s
  | .inputLevelChange n high => Sys2Proof.Machine.execInputLevelChange n high s
  | .debounceTimerExpiry n => Sys2Proof.Machine.execDebounceTimerExpiry n s
  | .clampTimerExpiry a => Sys2Proof.Machine.execClampTimerExpiry a s
  | .pulseTimerExpiry n => Sys2Proof.Machine.execPulseTimerExpiry n s
  | .stopTimerExpiry => Sys2Proof.Machine.execStopTimerExpiry s
  | .meshTimerExpiry => Sys2Proof.Machine.execMeshTimerExpiry s
  | .attemptTimerExpiry => Sys2Proof.Machine.execAttemptTimerExpiry s
  | .creepTimerExpiry => Sys2Proof.Machine.execCreepTimerExpiry s
  | .confirmTimerExpiry => Sys2Proof.Machine.execConfirmTimerExpiry s
  | .retryTimerExpiry => Sys2Proof.Machine.execRetryTimerExpiry s
  | .sensorTimerExpiry => Sys2Proof.Machine.execSensorTimerExpiry s
  | .primeTimerExpiry c => Sys2Proof.Machine.execPrimeTimerExpiry c s
  | .lossTimerExpiry c => Sys2Proof.Machine.execLossTimerExpiry c s
  | .purgeTimerExpiry => Sys2Proof.Machine.execPurgeTimerExpiry s
  | .periodStart ch => Sys2Proof.Machine.execPeriodStart ch s
  | .characterReceived d par stop => Sys2Proof.Machine.execCharacterReceived d par stop s
  | .decodeInterval => Sys2Proof.Machine.execDecodeInterval s
  | .pendantTimerExpiry => Sys2Proof.Machine.execPendantTimerExpiry s
  | .displayTimerExpiry => Sys2Proof.Machine.execDisplayTimerExpiry s
  | .ctsChange v => Sys2Proof.Machine.execCtsChange v s
  | .transmitByteDone => Sys2Proof.Machine.execTransmitByteDone s
  | .drainTimerExpiry => Sys2Proof.Machine.execDrainTimerExpiry s
  | .storePhaseEnd bad => Sys2Proof.Machine.execStorePhaseEnd bad s
  | .storePhaseTimeout done => Sys2Proof.Machine.execStorePhaseTimeout done s
  | .highPartEnd ch => Sys2Proof.Machine.execHighPartEnd ch s

end Sys2Proof.Machine
end

