-- ==== Sys2Proof/Machine/Ticks.lean ====
section
/-! DEFINITION. The timebase: which timers run, and what a microsecond without a command brings (log 1). -/

namespace Sys2Proof.Machine

/-- Timers of the Frame Switch, the Service Responder and the Table Manager with the commands of their expiries. How far
a store phase had come when its bound ran out is free (log 30). -/
def linkTimers (s : State) : List (Timer × Instr) :=
  [(s.fsw.windowTimer, .windowTimerExpiry), (s.fsw.periodTimer, .periodTimerExpiry),
    (s.fsw.linkTimer, .linkTimerExpiry), (s.fsw.restTimer, .restTimerExpiry)] ++
  (stations.map fun st => ((s.svr.pass.get st).timer, .passThroughTimerExpiry st)) ++
  [(s.tbm.job.bind Job.bound, .storePhaseTimeout (Config.finishedOffsets s.free))]

/-- Timers of the inputs, outputs, clamps, gearbox and coolant. -/
def machineTimers (s : State) : List (Timer × Instr) :=
  ((List.finRange 48).map fun n => ((s.iou.inputs[n]).timer, Instr.debounceTimerExpiry n)) ++
  ((List.finRange 32).map fun n => ((s.iou.outputs[n]).timer, Instr.pulseTimerExpiry n)) ++
  (axes.map fun a => ((s.axis a).clampTimer, Instr.clampTimerExpiry a)) ++
  [(s.sgu.stopTimer, .stopTimerExpiry), (s.sgu.meshTimer, .meshTimerExpiry),
    (s.sgu.attemptTimer, .attemptTimerExpiry), (s.sgu.creepTimer, .creepTimerExpiry),
    (s.sgu.confirmTimer, .confirmTimerExpiry), (s.sgu.retryTimer, .retryTimerExpiry),
    (s.sgu.sensorTimer, .sensorTimerExpiry)] ++
  (circuits.map fun c => ((s.clu.circuit.get c).primeTimer, Instr.primeTimerExpiry c)) ++
  (circuits.map fun c => ((s.clu.circuit.get c).lossTimer, Instr.lossTimerExpiry c)) ++
  [(s.clu.circuit.through.purgeTimer, .purgeTimerExpiry)]

/-- Timers of the pendant line; the decode interval always runs (R119). -/
def pendantTimers (s : State) : List (Timer × Instr) :=
  [(some s.pdu.decodeAt, .decodeInterval), (s.pdu.pendantTimer, .pendantTimerExpiry),
    (s.pdu.mailbox.timer, .displayTimerExpiry), (s.pdu.drainTimer, .drainTimerExpiry)]

/-- The timer has reached its expiry. -/
def timerDue (now : Nat) : Timer → Bool
  | none => false
  | some e => decide (e ≤ now)

/-- The expiries that have come due. -/
def dueExpiries (s : State) : List Instr :=
  ((linkTimers s ++ machineTimers s ++ pendantTimers s).filter fun p => timerDue s.now p.1).map Prod.snd

/-- Expiries that have come due together are taken in an order that is free (log 1). -/
def orderExpiries (n : Nat) (l : List Instr) : List Instr := if l.length ≤ 1 then l else permute n l

/-- The timebase with no command waiting: the first of the expiries that have come due joins the queue; with none due,
one microsecond passes. An expiry joins alone, so that one which the expiry before it has stopped or restarted is not
taken (R125, R145, R148). -/
def tick (s : State) : State :=
  match dueExpiries s with
  | [] => { s with now := s.now + 1 }
  | due => { s with pending := (orderExpiries s.free due).take 1, free := s.free + 1 }

end Sys2Proof.Machine
end

