-- ==== Sys2Proof/Safety.lean ====
section
/-! DEFINITION. What the manual promises of every state of the bridge, and the vocabulary in which statements say what
a command changes and what it leaves. -/

namespace Sys2Proof.Machine

/-! ## What a command leaves -/

/-- An axis record without its INTERLOCK hold, which every evaluation of the ILE may change (R108). -/
def AxisRec.apart (r : AxisRec) : AxisRec := { r with holds := { r.holds with interlock := false } }

/-- A stored byte without the note of when it was stored (R133). -/
def RxByte.plain (b : RxByte) : RxByte := { b with afterOut := false }

/-- The pendant record without what forming the LED image, placing messages and starting a byte may change
(R120, R130, R132). -/
def Pdu.apart (p : Pdu) : Pdu :=
  { p with
    rx := p.rx.map RxByte.plain, tx := [], sending := false, ledsPending := false, ledsCount := 0, ledImage := 0
    outLeft := none, mailbox := { p.mailbox with state := .free, timer := none, out := false } }

/-- An output without its level when a block function owns it (R100). -/
def outputApart (c : OutputCfg) (r : OutputRec) : OutputRec :=
  if c.owner = .general then r else { r with on := false }

/-- The state without what the end of every event brings up to date: the permission set with its INTERLOCK holds, the
levels of owned outputs, the LED image and the messages on the pendant line; and without the model's own clock and
counter of free choices. -/
def State.apart (s : State) : State :=
  { s with
    now := 0, free := 0, perms := .all true
    axes := ⟨s.axes.x.apart, s.axes.y.apart, s.axes.z.apart, s.axes.w.apart, s.axes.b.apart⟩
    iou := { s.iou with outputs := s.iou.outputs.mapFinIdx fun i r _ => outputApart s.cfg.outputs[i] r }
    pdu := s.pdu.apart }

/-- Parts of the state that a command may write. -/
structure Writes where
  fsw : Bool := false
  axes : Bool := false
  pubs : Bool := false
  sgu : Bool := false
  clu : Bool := false
  inputs : Bool := false
  outputs : Bool := false
  pdu : Bool := false
  svr : Bool := false
  tbm : Bool := false
  cfg : Bool := false
  evu : Bool := false
deriving DecidableEq, Repr

/-- The state with the parts that may be written blanked out. -/
def State.blank (w : Writes) (s : State) : State :=
  { s with
    fsw := if w.fsw then .reset else s.fsw
    axes := if w.axes then .all .reset else s.axes
    pubX := if w.pubs then ⟨0, false⟩ else s.pubX
    pubW := if w.pubs then ⟨0, false⟩ else s.pubW
    sgu := if w.sgu then .reset else s.sgu
    clu := if w.clu then .reset else s.clu
    iou :=
      { inputs := if w.inputs then Iou.reset.inputs else s.iou.inputs
        outputs := if w.outputs then Iou.reset.outputs else s.iou.outputs }
    pdu := if w.pdu then .reset else s.pdu
    svr := if w.svr then .reset else s.svr
    tbm := if w.tbm then .reset else s.tbm
    cfg := if w.cfg then .default else s.cfg
    evu := if w.evu then .reset else s.evu }

/-- From `s` to `t` nothing has changed but the parts in `w` and what the end of every event brings up to date. -/
def onlyWrites (w : Writes) (s t : State) : Prop := t.apart.blank w = s.apart.blank w

/-- Every axis but `a` is as it was, apart from INTERLOCK. -/
def otherAxesKept (a : Axis) (s t : State) : Prop := ∀ a', a' ≠ a → (t.axis a').apart = (s.axis a').apart

/-- Every byte of the table store reads as before. -/
def storeKept (s t : State) : Prop := ∀ a, memRead erased t.tbm.store a = memRead erased s.tbm.store a

/-! ## Promises of the manual -/

/-- No two records of a list have the same code and source (R194). -/
def noDuplicates : List EventRec → Bool
  | [] => true
  | e :: l => l.all (fun g => !e.dup g) && noDuplicates l

/-- The event lists keep their capacities and classes, and hold no duplicates (R194). -/
def Evu.wf (v : Evu) : Bool :=
  decide (v.urgent.length ≤ 8) && decide (v.notices.length ≤ 24) && noDuplicates v.urgent && noDuplicates v.notices &&
    v.urgent.all (fun e => e.code.urgent) && v.notices.all fun e => !e.code.urgent

/-- No sequence stands twice in a sent-compensation list (R14). -/
def noRepeats : List (Byte × Int) → Bool
  | [] => true
  | e :: l => l.all (fun g => decide (e.1 ≠ g.1)) && noRepeats l

/-- The compensation of an axis: C within the ceiling (R12), at most four entries sent and no sequence twice (R14). -/
def AxisRec.compWf (p : AxisParams) (r : AxisRec) : Bool :=
  decide (r.comp.natAbs ≤ p.ceiling) && decide (r.sent.length ≤ 4) && noRepeats r.sent

def compWf (s : State) : Bool := axes.all fun a => (s.axis a).compWf (s.cfg.axis.get a)

/-- The overlay of every axis is within the overlay limit (R25). Before the power-up load has ended no overlay
stands and no drive frame is paced. -/
def overlayWf (s : State) : Bool :=
  (axes.all fun a => decide ((s.axis a).overlay.natAbs ≤ (s.cfg.axis.get a).overlayLimit)) &&
    match s.fsw.state with
    | .reset | .loading => s.fsw.periodTimer.isNone && axes.all fun a => decide ((s.axis a).overlay = 0)
    | .standby | .running | .linkLost => true

/-- The THROUGH pump and the air valve are never called for together (R84). -/
def coolantWf (s : State) : Bool := !(throughPumpOn s && airValveOn s)

/-- The record of a station against the drive-reply queue: a running timer belongs to a request in flight, and a
station with an answer that waits has none in flight (R159, R161). -/
def stationWf (v : Svr) (st : Station) : Bool :=
  let p := v.pass.get st
  let waiting := (v.queue.filter fun d => decide (d.station = st)).length
  (p.timer.isNone || decide (p.phase = .outstanding)) &&
    (decide (waiting = 0) || (decide (waiting = 1) && decide (p.phase = .none)))

/-- No station has two answers waiting, or an answer and a request in flight (R159); the queue never needs more than
its six entries. -/
def Svr.wf (v : Svr) : Bool := decide (v.queue.length ≤ 6) && stations.all (stationWf v)

/-- Every owned output shows the level that its function calls for (R100). -/
def outputsFollow (s : State) : Prop :=
  ∀ n : Fin 32, (s.cfg.outputs[n]).owner ≠ .general → (s.iou.outputs[n]).on = calledLevel s n (s.cfg.outputs[n]).owner

/-- The two memories are in canonical form: the table store over 0xFF, the staging buffer over 0. -/
def memoriesWf (s : State) : Bool := memWf erased s.tbm.store && memWf 0 s.tbm.staging.bytes

/-- The permission set is that of the state as it stands (R107, R108), and INTERLOCK stands on exactly the axes whose
MOVE permission is withdrawn (R108, R110). -/
def permsWf (s : State) : Prop :=
  s.perms = evalPerms s ∧ ∀ a, (s.axis a).holds.interlock = !s.perms.move.get a

/-- The LED image is that of the state as it stands (R130). -/
def ledsWf (s : State) : Prop := s.pdu.ledImage = ledImage s

/-- Hold reasons stand where their owners hold them: FEED_HOLD with its latch (R129), PENDANT_LOST with the lost mark
(R126), LINK_LOST in that bridge state (R154, R155), FAULT with a fault record (R45, R46). -/
def holdsWf (s : State) : Prop :=
  ∀ a, (s.axis a).holds.feedHold = s.pdu.feedHold ∧ (s.axis a).holds.pendantLost = s.pdu.lost ∧
    (s.axis a).holds.linkLost = decide (s.fsw.state = .linkLost) ∧
    (s.axis a).holds.fault = (s.axis a).fault.isSome

/-- The THROUGH pump is on in SETTLED and UNKNOWN alone, so never while a shift output is called for (R60). -/
def pumpGearWf (s : State) : Bool :=
  !throughPumpOn s || decide (s.sgu.shift = .settled) || decide (s.sgu.shift = .unknown)

/-- A RESTART that has been taken finds the bridge in STANDBY with no store job and no self-paced frames (R172); its own
window is open until the echo with its reply leaves, and none is open once the warm reset is due (R140). -/
def restartWf (s : State) : Bool :=
  let rest := decide (s.fsw.state = .standby) && s.tbm.job.isNone && s.fsw.periodTimer.isNone
  match s.fsw.restart, s.fsw.window with
  | .none, _ => true
  | .requested q, some w => rest && decide (w.seq = q) && w.echo.isSome
  | .requested _, none | .due, some _ => false
  | .due, none => rest

/-- What follows every event has been brought up to date (R100, R108, R120, R130). -/
def settledEvent (s : State) : Prop := finish s = s

/-- The way that steps falling from `s` by `a` a frame still cover after the present one (R30, R31). -/
def stopDist (a s : Nat) : Nat := ((List.range (s / a)).map fun k => s - (k + 1) * a).sum

/-- The distance of a position outside the soft window (R27). -/
def outside (p : AxisParams) (f : Int) : Nat := (p.softMin - f).toNat + (f - p.softMax).toNat

/-- The motion half of an axis between drive frames: DISABLED without the drive enable (R35), at rest when HELD or
DISABLED, HELD or DISABLED unless the clamp is FREE (R39), the step within vmax (R33), and for a referenced linear axis a
step that can still stop inside the soft window (R28, R31). -/
def AxisRec.motionWf (p : AxisParams) (a : Axis) (r : AxisRec) : Bool :=
  let still := decide (r.follower = .held) || decide (r.follower = .disabled)
  let stops := stopDist (edgeDecel p) r.s.natAbs
  (decide (r.follower = .disabled) == !r.enableFwd) && (!still || decide (r.s = 0)) &&
    (decide (r.clamp = .free) || still) && decide (r.s.natAbs ≤ p.vmax) &&
    (!windowed a r.referenced ||
      ((decide (r.s ≤ 0) || decide (r.f + stops ≤ p.softMax)) &&
        (decide (0 ≤ r.s) || decide (p.softMin ≤ r.f - stops))))

/-- No image and no store job reaches beyond a sector of 2,048 bytes (R178, R183). -/
def imagesWf (s : State) : Prop :=
  s.tbm.staging.fill ≤ 2048 ∧ (∀ id, (s.entry id).image.length ≤ 2048) ∧
    ∀ j, s.tbm.job = some j → j.offset + j.image.length ≤ 2048

/-! ## Results that several statements share -/

/-- The clamp state that the confirm inputs show at a reset or at the activation of a clamp configuration (R50). -/
def clampShown (s : State) (a : Axis) : ClampState :=
  match (s.cfg.axis.get a).clamp with
  | none => .free
  | some c =>
    if s.input c.clamped then (if s.input c.unclamped then .clampFault else .clamped) else .free

/-- The fault record of an axis at a reset: that of an active hard-limit input, the positive one first (R44, R45). -/
def limitFault (s : State) (a : Axis) : Option AxisFault :=
  let p := s.cfg.axis.get a
  if s.inputOpt p.posLimit then some ⟨.hardLimitPos, true, 0⟩
  else if s.inputOpt p.negLimit then some ⟨.hardLimitNeg, true, 0⟩
  else none

/-- A permission that stays granted while no table is activated: it stands, and no interlock row targets it (R107). -/
def grantStands (s : State) (p : Perm) : Prop :=
  s.perms.get p = true ∧ ∀ r ∈ s.cfg.interlock, r.target ≠ p

/-- A permission that stays withdrawn while no table is activated and no input changes: a row that needs all its terms
targets it, and one of them names an input in the other state (R106, R107). -/
def denialStands (s : State) (p : Perm) : Prop :=
  s.perms.get p = false ∧ ∃ r ∈ s.cfg.interlock, r.target = p ∧ r.any = false ∧
    ∃ x ∈ r.terms, ∃ n, x.cond = .input n ∧ s.input n ≠ x.holds

/-- The record of a circuit with the coolant field of a command frame taken (R77). -/
def circuitTaken (c : CoolantCmd) (s : State) (ci : Circuit) : CircuitRec :=
  match ci with
  | .flood => { s.circuit .flood with request := c.flood, level := min c.floodLevel 15 }
  | .through => { s.circuit .through with request := c.through, level := min c.throughLevel 15 }
  | .air => { s.circuit .air with request := c.air }

/-- The state allows a table to change to what `new` holds (R49, R73, R92, R115, R135, R182). -/
def mayTake (id : TableId) (new : Tables) (s : State) : Prop :=
  let still (a : Axis) : Prop :=
    ((s.axis a).follower = .held ∧ (s.axis a).w = 0) ∨ (s.axis a).follower = .disabled
  let circuitsOff : Prop := ∀ c, (s.circuit c).state = .off
  let gearRests : Prop := s.sgu.purgeWait = false ∧
    (s.sgu.shift = .settled ∨ s.sgu.shift = .failed ∨ s.sgu.shift = .unknown) ∧
    s.sgu.actual.natAbs ≤ s.cfg.gear.stopThreshold
  let machineRests : Prop :=
    (∀ a, (s.axis a).follower = .held ∨ (s.axis a).follower = .disabled) ∧ gearRests ∧ circuitsOff
  match id with
  | .axisParams a =>
    let p := new.axis.get a
    let r := s.axis a
    still a ∧ r.clamp = .free ∧ r.overlay.natAbs ≤ p.overlayLimit ∧
      (r.referenced = true → a.linear = true → p.softMin ≤ r.f ∧ r.f ≤ p.softMax) ∧
      (r.enableFwd = true → r.comp.natAbs ≤ p.ceiling)
  | .pitch a => still a
  | .crossYW => still .y
  | .crossZX => still .z
  | .gear => gearRests
  | .coolant => circuitsOff
  | .inputs | .interlock => machineRests
  | .outputs => machineRests ∧
      ∀ a, (s.axis a).clamp = .free ∨ clampOutputOf s.cfg.outputs a = clampOutputOf new.outputs a
  | .pendant => (s.pdu.live = false ∨ s.pdu.enable = false) ∧ s.pdu.restarting = false
  | .link => s.fsw.state = .standby
  | .identity => True

/-- An axis record after CLEAR_FAULTS on its axis: the escape direction from the hard-limit inputs (R47), and unless both
are active no fault and, from CLAMP_FAULT, the clamp state that the confirm inputs show (R46, R41). -/
def clearedAxis (s : State) (a : Axis) : AxisRec :=
  let p := s.cfg.axis.get a
  let r := s.axis a
  let pos := s.inputOpt p.posLimit
  let neg := s.inputOpt p.negLimit
  if pos = true ∧ neg = true then { r with escape := none }
  else
    let u : AxisRec := { r with
      escape := if pos then some .negative else if neg then some .positive else none
      fault := none, driveFaultMem := false, holds := { r.holds with fault := false } }
    match p.clamp with
    | none => u
    | some k =>
      let closed := s.input k.clamped
      if r.clamp = .clampFault ∧ closed ≠ s.input k.unclamped then
        { u with
          clamp := if closed then .clamped else .free, clampOut := closed
          holds := { u.holds with clamp := closed || r.slot.clampRequest } }
      else u

/-- The gear record after CLEAR_FAULTS: no fault (R57), and UNKNOWN from FAILED (R68, R69). -/
def clearedSpindle (s : State) : Sgu :=
  let g : Sgu := { s.sgu with fault := none, driveFaultMem := false }
  if g.shift = .failed then
    { g with
      shift := .unknown, current := none, target := none, attempts := 0
      sensorTimer := if (onlyGear s).isSome then some (s.now + 1000 * s.cfg.gear.confirmTime) else none }
  else g

/-- From `s` to `t` CLEAR_FAULTS has acted on the CLU: FAULTED circuits are OFF with duty 0 staged (R81, R90), and the
coolant-loss mark is clear (R88). -/
def coolantCleared (s t : State) : Prop :=
  (∀ c, t.circuit c =
    if (s.circuit c).state = .faulted then { s.circuit c with state := .off, fault := none } else s.circuit c) ∧
  t.clu.pw0.staged = (if (s.circuit .through).state = .faulted then ⟨s.cfg.coolant.pw0Base, 0⟩ else s.clu.pw0.staged) ∧
  t.clu.pw1.staged = (if (s.circuit .flood).state = .faulted then ⟨s.cfg.coolant.pw1Base, 0⟩ else s.clu.pw1.staged) ∧
  t.clu.lossHold = false

/-- A record of this code and source waits in its list, or the list has overflowed (R194). -/
def reported (c : Code) (src : Source) (v : Evu) : Prop :=
  if c.urgent then (∃ e ∈ v.urgent, e.code = c ∧ e.source = src) ∨ v.urgentOverflow = true
  else (∃ e ∈ v.notices, e.code = c ∧ e.source = src) ∨ v.noticeOverflow = true

/-- The hard limits of an axis after input `n` has become `p` (R44, R47). -/
def limitsTook (n : Fin 48) (p : Bool) (a : Axis) (s t : State) : Prop :=
  let c := s.cfg.axis.get a
  (c.posLimit = some n → p = true → (s.axis a).fault = none →
    (t.axis a).fault.map AxisFault.reason = some .hardLimitPos) ∧
  (c.negLimit = some n → c.posLimit ≠ some n → p = true → (s.axis a).fault = none →
    (t.axis a).fault.map AxisFault.reason = some .hardLimitNeg) ∧
  (c.posLimit = some n → p = false → (t.axis a).escape ≠ some .negative) ∧
  (c.negLimit = some n → p = false → (t.axis a).escape ≠ some .positive)

/-- The clamp of an axis after input `n`, one of its confirm inputs and none of its hard limits, has become `p` (R39 to
R41). -/
def clampTook (n : Fin 48) (p : Bool) (a : Axis) (s t : State) : Prop :=
  ∀ k, (s.cfg.axis.get a).clamp = some k → (s.cfg.axis.get a).posLimit ≠ some n →
    (s.cfg.axis.get a).negLimit ≠ some n → k.clamped ≠ k.unclamped →
    let r := s.axis a
    let u := t.axis a
    let wait := some (t.now + 1000 * k.timeout)
    (k.clamped = n →
      (r.clamp = .clamping → u.clampOut = r.clampOut ∧
        if p then u.clamp = .clamped ∧ u.clampTimer = none else u.clamp = .clamping ∧ u.clampTimer = r.clampTimer) ∧
      (r.clamp = .clamped → u.clamp = .clamped ∧ u.clampTimer = if p then none else wait) ∧
      (r.clamp = .free ∨ r.clamp = .unclamping → u.clamp = r.clamp ∧ u.clampTimer = r.clampTimer)) ∧
    (k.unclamped = n →
      (r.clamp = .unclamping →
        if p then u.clamp = .free ∧ u.clampTimer = none ∧ u.holds.clamp = r.slot.clampRequest
        else u.clamp = .unclamping ∧ u.clampTimer = r.clampTimer) ∧
      (r.clamp = .free ∨ r.clamp = .clamping ∨ r.clamp = .clamped →
        u.clamp = r.clamp ∧ u.clampTimer = r.clampTimer)) ∧
    (k.clamped = n ∨ k.unclamped = n → r.clamp = .clampFault →
      if r.fault = none ∧ t.input k.clamped ≠ t.input k.unclamped then
        u.clamp = (if t.input k.clamped then .clamped else .free) ∧ u.clampOut = t.input k.clamped
      else u.clamp = .clampFault ∧ u.clampOut = r.clampOut)

/-- The gear record after input `n`, the sensor of one range alone, has become `p` (R63 to R65, R69, R70). -/
def sensorTook (n : Fin 48) (p : Bool) (s t : State) : Prop :=
  ∀ r, s.cfg.gear.ranges = some r → ∀ g, r.sensor g = n → (∀ g', r.sensor g' = n → g' = g) →
    let u := s.sgu
    let confirm := some (t.now + 1000 * s.cfg.gear.confirmTime)
    (u.shift = .settled → t.sgu = { u with
      sensorTimer := if gearLostCond t then (if u.sensorTimer.isSome then u.sensorTimer else confirm) else none }) ∧
    (u.shift = .unknown → t.sgu = { u with sensorTimer := if (onlyGear t).isSome then confirm else none }) ∧
    (u.shift = .shifting ∨ u.shift = .creeping → t.sgu =
      if p ∧ u.target = some g then { u with shift := .confirming, creepTimer := none, confirmTimer := confirm }
      else u) ∧
    (u.shift = .confirming →
      if p = false ∧ u.target = some g then
        if u.attemptSpent then
          t.sgu.lastFailure = some .noMesh ∧
          t.sgu.shift = if u.attempts < s.cfg.gear.maxAttempts then .retryPause else .failed
        else t.sgu.confirmTimer = none ∧ t.sgu.target = u.target ∧
          t.sgu.shift = if u.meshElapsed ∧ g ≠ .neutral then .creeping else .shifting
      else t.sgu = u) ∧
    (u.shift = .awaitPermit ∨ u.shift = .stopping ∨ u.shift = .retryPause ∨ u.shift = .failed → t.sgu = u)

/-- The coolant circuits after input `n` has become `p`: the pressure switch of one circuit alone (R79, R80), or the
tank-low input (R87). -/
def coolantTook (n : Fin 48) (p : Bool) (s t : State) : Prop :=
  (∀ c, (s.circuitCfg c).switch = some n → (∀ c', (s.circuitCfg c').switch = some n → c' = c) →
    s.cfg.coolant.tankLow ≠ some n →
    let r := s.circuit c
    (∀ c', c' ≠ c → t.circuit c' = s.circuit c') ∧
    t.circuit c =
      match r.state, p with
      | .priming, true => { r with state := .running, primeTimer := none }
      | .running, true => { r with lossTimer := none }
      | .running, false =>
        if (s.circuitCfg c).loss = 0 then
          { r with state := .faulted, primeTimer := none, lossTimer := none, fault := some .pressureLost }
        else { r with lossTimer := some (t.now + 1000 * (s.circuitCfg c).loss) }
      | _, _ => r) ∧
  (s.cfg.coolant.tankLow = some n → (∀ c, (s.circuitCfg c).switch ≠ some n) →
    ∀ c, if p ∧ (s.circuit c).state.on then
        (t.circuit c).state = (if c = .through then .purging else .off) ∧
          reported .coolantStopped (.circuit c) t.evu
      else t.circuit c = s.circuit c)

/-- From `s` to `t`, input `n` has taken the presented state of the raw level `raw`. A change of its conditioned state
is reported by the event class (R97) and reaches the hard limits (R44, R47), the clamps (R39 to R41), the gear record
(R65, R69, R70) and the coolant circuits (R79, R80, R87). -/
def inputTaken (n : Fin 48) (raw : Bool) (s t : State) : Prop :=
  let p := presented (inputCfg s n) raw
  let cls := (inputCfg s n).cls
  t.iou.inputs = s.iou.inputs.set n ⟨raw, p, none⟩ ∧
    if p = s.input n then onlyWrites { inputs := true } s t
    else
      onlyWrites { inputs := true, axes := true, sgu := true, clu := true, evu := true } s t ∧
      (cls = .urgentActive → p = true → reported .inputUrgent (.input n) t.evu) ∧
      (cls = .noticeActive → p = true → reported .inputEdge (.input n) t.evu) ∧
      (cls = .noticeBoth → reported .inputEdge (.input n) t.evu) ∧
      (∀ a, limitsTook n p a s t ∧ clampTook n p a s t) ∧ sensorTook n p s t ∧ coolantTook n p s t

/-- A command frame is accepted in STANDBY or RUNNING (R143, R146): it passes the tests, its sequence is new, and no
RESTART waits for its echo or its warm reset (R140). -/
def acceptedInCycle (data : List Byte) (c : CommandFrame) (s : State) : Prop :=
  (s.fsw.state = .standby ∨ s.fsw.state = .running) ∧ s.fsw.restart = .none ∧ testCommand data = .passes c ∧
    s.fsw.lastSeq ≠ some c.seq

/-- The command brings no service request (R160). -/
def noRequest (c : Instr) : Bool :=
  match c with
  | .commandFrame data =>
    match testCommand data with
    | .passes f => decide (f.service = [])
    | .checkFails | .malformed => true
  | _ => true

/-- The Service Responder as the drive frame of a command takes its segments: a request of an accepted command frame has
been taken (R160, R161, R164), after the close of the window before (R146). -/
def svrAtFrame (c : Instr) (s : State) : Svr :=
  match c with
  | .commandFrame data =>
    match testCommand data with
    | .passes f => (takeSlot f.seq f.service (closeWindow s)).svr
    | .checkFails | .malformed => s.svr
  | _ => s.svr

/-- A drive frame has left the D-port from `s` to `t` (R147, R148). -/
def frameSent (s t : State) : Prop := t.fsw.dPort.count = s.fsw.dPort.count + 1

/-- How many echoes the close of the open window sends (R150). -/
def echoesDue (s : State) : Nat :=
  match s.fsw.window with
  | some w => if w.echo.isSome then 1 else 0
  | none => 0

end Sys2Proof.Machine
end

