-- ==== Sys2Proof/Certificates/Slice0/Obligations.lean ====
section
/-! DEFINITION. The statements for the provers. Every statement about a command says when it answers a next state,
what that state holds, and that nothing else has changed (`onlyWrites`, `otherAxesKept`). -/

section Statements

open Sys2Proof Sys2Proof.Machine

/-! ## The queue, the timebase, the table store -/

/-- A step takes the command at the front of the queue and runs it on the rest of the queue. -/
def Obligations.StepTakesFrontCommand : Prop :=
  ∀ (c : Instr) (rest : List Instr) (s : State),
    step { s with pending := c :: rest } = exec c { s with pending := rest }

/-- Model's choice (log 1): with no command waiting a step takes one of the expiries that have come due into the queue,
alone; with none due it is one microsecond of the timebase. Nothing else changes. -/
def Obligations.EmptyQueueLetsTimePass : Prop :=
  ∀ s : State, s.pending = [] → ∃ t, step s = .next t ∧
    (dueExpiries s = [] → t = { s with now := s.now + 1 }) ∧
    (dueExpiries s ≠ [] → ∃ c ∈ dueExpiries s, t = { s with pending := [c], free := s.free + 1 })

/-- Model's choice (log 40): every command completes in every state, leaves the queue alone and never turns the
timebase back. -/
def Obligations.EveryCommandCompletes : Prop :=
  ∀ (c : Instr) (s : State), ∃ t, exec c s = .next t ∧ t.pending = s.pending ∧ s.now ≤ t.now

/-- R183 to R186: only a cold reset and the two store-phase commands write the table store, and they write no byte
outside the sector of the store job. -/
def Obligations.StoreWrittenOnlyInJobSector : Prop :=
  ∀ (c : Instr) (s t : State), exec c s = .next t →
    ((∀ l, c ≠ .coldReset l) → (∀ l, c ≠ .storePhaseEnd l) → (∀ l, c ≠ .storePhaseTimeout l) →
      t.tbm.store = s.tbm.store) ∧
    ((∀ j, s.tbm.job = some j → j.offset + j.image.length ≤ 2048) →
      ∀ a, (∀ j, s.tbm.job = some j → a < j.address ∨ j.address + 2048 ≤ a) →
        memRead erased t.tbm.store a = memRead erased s.tbm.store a)

/-! ## What every step keeps -/

/-- R178, R183: both memories stay in canonical form, and no image and no store job grows beyond a sector. -/
def Obligations.MemoriesStayCanonicalAndFit : Prop :=
  (∀ s t : State, memoriesWf s = true → step s = .next t → memoriesWf t = true) ∧
  (∀ s t : State, imagesWf s → step s = .next t → imagesWf t)

/-- R194: the two event lists keep their capacities and classes, and never hold two records with the same code and
source. -/
def Obligations.EventListsKeepTheirRules : Prop :=
  ∀ s t : State, s.evu.wf = true → step s = .next t → t.evu.wf = true

/-- R84: the THROUGH pump output and the air valve output are never on together. -/
def Obligations.PumpAndAirValveStayApart : Prop :=
  ∀ s t : State, coolantWf s = true → step s = .next t → coolantWf t = true

/-- R60, R86: the THROUGH pump is on in SETTLED and UNKNOWN alone; with owned outputs at their functions' levels (R100),
the output of the THROUGH pump and an output of the gear shift are never on together; and purge wait, answered in the
event that sets it, is clear between events. -/
def Obligations.PumpAndGearShiftStayApart : Prop :=
  (∀ s t : State, pumpGearWf s = true → step s = .next t → pumpGearWf t = true) ∧
  (∀ s t : State, s.sgu.purgeWait = false → step s = .next t → t.sgu.purgeWait = false) ∧
  ∀ s : State, pumpGearWf s = true → outputsFollow s → ∀ n m : Fin 32,
    (s.cfg.outputs[n]).owner = .throughPump → (s.cfg.outputs[m]).owner = .gearShift →
    ¬((s.iou.outputs[n]).on = true ∧ (s.iou.outputs[m]).on = true)

/-- R100: every owned output shows the level that its function calls for. -/
def Obligations.OwnedOutputsFollowFunctions : Prop :=
  ∀ s t : State, outputsFollow s → step s = .next t → outputsFollow t

/-- R159: no station has two answers waiting, or an answer and a request in flight, and the queue never needs more than
its six entries. -/
def Obligations.RepliesKeepTheirRules : Prop :=
  ∀ s t : State, s.svr.wf = true → step s = .next t → t.svr.wf = true

/-- R12, R14, R25: the applied compensation stays within the ceiling, the sent-compensation list holds at most four
entries, no sequence twice, and the overlay of every axis stays within the overlay limit. -/
def Obligations.CompensationAndOverlayStayBounded : Prop :=
  (∀ s t : State, compWf s = true → step s = .next t → compWf t = true) ∧
  (∀ s t : State, overlayWf s = true → step s = .next t → overlayWf t = true)

/-- R107, R108, R110, R130: the permission set and the LED image stay those of the state as it stands, and INTERLOCK
stands on exactly the axes whose MOVE is withdrawn. -/
def Obligations.PermissionsAndLedsStayCurrent : Prop :=
  (∀ s t : State, permsWf s → step s = .next t → permsWf t) ∧
  (∀ s t : State, ledsWf s → step s = .next t → ledsWf t)

/-- R37: FEED_HOLD, PENDANT_LOST, LINK_LOST and FAULT stand exactly where their owners hold them. -/
def Obligations.HoldsFollowTheirOwners : Prop :=
  ∀ s t : State, holdsWf s → step s = .next t → holdsWf t

/-- R140, R172, R192: a RESTART that has been taken finds the bridge in STANDBY with no store job and no self-paced frames
until its warm reset (with log 47: a frame or a link timer that closes its window goes no further). -/
def Obligations.WarmResetDueOnlyAtRest : Prop :=
  ∀ s t : State, restartWf s = true → step s = .next t → restartWf t = true

/-- What every step keeps holds right after reset. -/
def Obligations.KeptPropertiesHoldAtReset : Prop :=
  memoriesWf State.reset = true ∧ State.reset.evu.wf = true ∧ coolantWf State.reset = true ∧
    pumpGearWf State.reset = true ∧ outputsFollow State.reset ∧ State.reset.svr.wf = true ∧
    compWf State.reset = true ∧ overlayWf State.reset = true ∧ permsWf State.reset ∧ ledsWf State.reset ∧
    holdsWf State.reset ∧ restartWf State.reset = true ∧ imagesWf State.reset ∧ State.reset.sgu.purgeWait = false

/-! ## Resets and the power-up load -/

/-- COLD_RESET (R139 and the reset rule of each chapter): the whole state afterwards. The model's choices in it: raw levels
are kept (log 3), CTS is kept (log 6), the table store is what the job that was cut off left (log 30), what has left
the ports, the clock, the free choices, `decodeAt` and stored copies that read BLANK until the load (log 34), the slots
last taken, forwarded enables, feedback and marks of the axes and the spindle (log 39), the demand 0 (log 55), and no clamp
configuration of a frame (log 56). -/
def Obligations.ColdResetLeavesResetValues : Prop :=
  ∀ (done : List Nat) (s : State), exec (.coldReset done) s = .next
    { State.reset with
      pending := s.pending, now := s.now, free := s.free
      fsw := { Fsw.reset with cPort := s.fsw.cPort, dPort := s.fsw.dPort }
      iou := { Iou.reset with inputs := s.iou.inputs.map fun r => ⟨r.raw, r.raw, none⟩ }
      pdu := { Pdu.reset with cts := s.pdu.cts, decodeAt := s.now + 2000 }
      tbm := { Tbm.reset with store := storeCutOff done s.tbm } }

/-- RESET_RELEASE (R139): RESET becomes LOADING; outside RESET nothing is released (model's choice, log 33). In RESET and
LOADING a command frame is discarded, and one that passes the check test, read by the layout of log 26, is counted as
refused (R139, R158); so is, by the model's choice of log 41, one that comes while a warm reset is due (R140). One that fails the
check test raises no counter there (model's choice, log 61). -/
def Obligations.NotReadyUntilLoaded : Prop :=
  (∀ s : State,
    (s.fsw.state = .reset → ∃ t, exec .resetRelease s = .next t ∧
      t.fsw = { s.fsw with state := .loading } ∧ t.now = s.now ∧ onlyWrites { fsw := true } s t) ∧
    (s.fsw.state ≠ .reset → exec .resetRelease s = .next s)) ∧
  ∀ (data : List Byte) (s : State),
    (s.fsw.state = .reset ∨ s.fsw.state = .loading ∨ s.fsw.restart = .due) →
    ∃ t, exec (.commandFrame data) s = .next t ∧ onlyWrites { fsw := true } s t ∧
      t.fsw = (match checkedFrame (3, 72) data with
        | none => s.fsw
        | some _ => { s.fsw with counters := { s.fsw.counters with refused := s.fsw.counters.refused + 1 } })

/-- LOAD_END (R189, R190): every sector is classified, the marks are read, the active tables are those of the images
that passed, every input takes its state under the loaded polarity and every clamp that of its confirm inputs, the pendant
is ABSENT, and the state is STANDBY. Outside LOADING no load ends (model's choice, log 33), and a pendant that is LIVE with
its enable held leaves PENDANT_LOST and the lost mark as they stand (model's choice, log 68). -/
def Obligations.LoadEndActivatesStoredTables : Prop :=
  ∀ s : State,
  (s.fsw.state ≠ .loading → exec .loadEnd s = .next s) ∧
  (s.fsw.state = .loading → ∃ t, exec .loadEnd s = .next t ∧
    t.fsw = { s.fsw with state := .standby } ∧
    { t.tbm with cat := s.tbm.cat } = s.tbm ∧
    (∀ id,
      let l := sectorBytes s.tbm.store (tableIndex id)
      let e := t.entry id
      let p := sectorBytes s.tbm.store 44
      (isBlank l = true → e.status = .default ∧ e.image = [] ∧ e.stored = .blank ∧ e.header = none) ∧
      (isBlank l = false → checkImage id (sectorImage l) = none →
        e.status = .valid ∧ e.image = sectorImage l ∧ e.stored = .valid ∧
          e.header = some ((sectorImage l).take 8)) ∧
      (isBlank l = false → checkImage id (sectorImage l) ≠ none →
        e.status = .absent ∧ e.image = [] ∧ e.stored = .invalid ∧ e.header = none ∧
          reported .tableAbsent (.table (tableByte id)) t.evu) ∧
      e.protect = (if isBlank p then false
        else if (crc16 (p.take 20)).toNat = u16At p 20 then decide (byteAt p (tableIndex id) ≠ 0) else true) ∧
      e.freeze = decide (byteAt (sectorBytes s.tbm.store 47) (tableIndex id) ≠ 255) ∧
      e.running = (s.entry id).running) ∧
    t.cfg = loadedTables t.tbm.cat ∧
    (∀ n : Fin 48, t.iou.inputs[n] =
      ⟨(s.iou.inputs[n]).raw, presented (inputCfg t n) (s.iou.inputs[n]).raw, none⟩) ∧
    (∀ a, (t.axis a).clamp = clampShown t a ∧ (t.axis a).clampTimer = none ∧
      (t.axis a).holds.pendantLost = (s.axis a).holds.pendantLost) ∧
    t.pdu.live = false ∧ t.pdu.enable = false ∧ t.pdu.lost = s.pdu.lost ∧
    onlyWrites { fsw := true, axes := true, sgu := true, clu := true, inputs := true, outputs := true, pdu := true,
                 tbm := true, cfg := true, evu := true } s t)

/-- WARM_RESET (R140 and the reset rule of each chapter): in STANDBY, the state afterwards, block by block. The model's
choices in it: raw levels are kept (log 3), CTS is kept (log 6), `decodeAt` and what has left the ports are kept (log 34),
slots last taken, forwarded enables, feedback and marks are those of a cold reset (log 39) and so are the demand 0 (log 55)
and the absent clamp configuration of a frame (log 56),
no LEDS message is placed in the event of the reset (log 42), the positive one of two active hard limits makes the fault
record (`limitFault`, log 51), the sensor timer of a SETTLED record runs exactly if the gear-lost condition holds (log 17),
and nothing is reset without the echo of a RESTART (log 31, log 33). -/
def Obligations.WarmResetLeavesResetValues : Prop :=
  ∀ s : State,
  (s.fsw.restart ≠ .due ∨ s.fsw.state ≠ .standby → exec .warmReset s = .next s) ∧
  (s.fsw.restart = .due → s.fsw.state = .standby → ∃ t, exec .warmReset s = .next t ∧
    t.pending = s.pending ∧ t.now = s.now ∧ t.cfg = s.cfg ∧ t.svr = .reset ∧
    t.fsw = { Fsw.reset with
      state := .standby, counters := s.fsw.counters, cPort := s.fsw.cPort, dPort := s.fsw.dPort } ∧
    t.tbm = { s.tbm with staging := .reset } ∧
    t.pubX = ⟨0, false⟩ ∧ t.pubW = ⟨0, false⟩ ∧
    (∀ n : Fin 48, t.iou.inputs[n] =
      ⟨(s.iou.inputs[n]).raw, presented (inputCfg s n) (s.iou.inputs[n]).raw, none⟩) ∧
    (∀ n : Fin 32, (t.iou.outputs[n]).timer = none ∧
      ((s.cfg.outputs[n]).owner = .general → (t.iou.outputs[n]).on = false)) ∧
    (∀ a,
      let st := clampShown t a
      t.axis a = { AxisRec.reset with
        clamp := st, clampOut := decide (st = .clamped), fault := limitFault t a
        holds := { Holds.none with
          clamp := decide (st ≠ .free), fault := (limitFault t a).isSome, interlock := !t.perms.move.get a } }) ∧
    t.perms = evalPerms t ∧
    t.clu = { Clu.reset with
      pw0 := ⟨⟨s.cfg.coolant.pw0Base, 0⟩, ⟨s.cfg.coolant.pw0Base, 0⟩, false⟩
      pw1 := ⟨⟨s.cfg.coolant.pw1Base, 0⟩, ⟨s.cfg.coolant.pw1Base, 0⟩, false⟩ } ∧
    t.sgu = (if s.sgu.shift = .settled then
      { Sgu.reset with
        shift := .settled, current := s.sgu.current, lastFailure := s.sgu.lastFailure
        sensorTimer := if gearLostCond t then t.startMs s.cfg.gear.confirmTime else none }
    else
      { Sgu.reset with sensorTimer := if (onlyGear t).isSome then t.startMs s.cfg.gear.confirmTime else none }) ∧
    t.pdu = { Pdu.reset with
      divisor := s.cfg.pendant.divisor, rtsThreshold := s.cfg.pendant.threshold, cts := s.pdu.cts
      decodeAt := s.pdu.decodeAt, ledsCount := s.pdu.ledsCount, ledImage := ledImage t
      mailbox := { Pdu.reset.mailbox with counter := s.pdu.mailbox.counter } } ∧
    ((∀ a, limitFault t a = none) → t.evu = .reset))

/-- R174: both resets leave every pass-through record in NONE with its timer stopped, the queue empty, and neither a
bridge reply nor a broadcast pending; a reply segment that comes afterwards is discarded, and CLEAR_FAULTS does not act
on the SVR. -/
def Obligations.ResetsClearTheServiceResponder : Prop :=
  (∀ (c : Instr) (s : State), ((∃ l, c = .coldReset l) ∨ (c = .warmReset ∧ s.fsw.restart = .due ∧ s.fsw.state = .standby)) →
    ∃ t, exec c s = .next t ∧
      (∀ st, (t.svr.pass.get st).phase = .none ∧ (t.svr.pass.get st).timer = none) ∧
      t.svr.queue = [] ∧ t.svr.reply = none ∧ t.svr.broadcast = none ∧
      ∀ st g, driveReply st g t = t) ∧
  ∀ (params : List Byte) (s : State), (clearFaults params s).2.2.svr = s.svr

/-! ## Command frames and drive frames -/

/-- R143: the four tests on a frame at the C-port, in order, the counter of the first that fails, and no other effect: but
for the counter, a state that the event before it has brought up to date (`settledEvent`) stays as it is to the last
field. A frame that passes all four is accepted. `l` is the frame without padding when its span is whole and its CRC
matches; the layout by which a frame of an unknown kind is read is the model's choice (log 26). -/
def Obligations.CommandFrameTests : Prop :=
  ∀ (data : List Byte) (s : State),
    (s.fsw.state = .standby ∨ s.fsw.state = .running ∨ s.fsw.state = .linkLost) → s.fsw.restart ≠ .due →
    ∃ t, exec (.commandFrame data) s = .next t ∧
      let counted (n : Counters) : Prop :=
        t.fsw = { s.fsw with counters := n } ∧ onlyWrites { fsw := true } s t ∧
          (settledEvent s → t = { s with fsw := { s.fsw with counters := n } })
      (checkedFrame (3, 72) data = none → counted { s.fsw.counters with check := s.fsw.counters.check + 1 }) ∧
      ∀ l, checkedFrame (3, 72) data = some l →
        if l.getD 0 0 ≠ 0x11#8 ∨ l.length ≠ 72 + byteAt l 5 ∨ 48 < byteAt l 5 then
          counted { s.fsw.counters with malformed := s.fsw.counters.malformed + 1 }
        else if s.fsw.lastSeq = some (l.getD 1 0) then
          counted { s.fsw.counters with duplicates := s.fsw.counters.duplicates + 1 }
        else
          t.fsw.lastSeq = some (l.getD 1 0) ∧ t.fsw.counters.accepted = s.fsw.counters.accepted + 1

/-- R141, R142, R144 to R147: a frame accepted in STANDBY or RUNNING closes the old cycle, sets the bridge state, sends
one drive frame of its own sequence and opens a return window. Model's choices: a frame that activates a link table
starts the link timer with the old fields and the window timer with the new ones (log 60); a frame whose acceptance closes
the window of a RESTART sends the echo with its reply, and no more of the frame is acted on (log 47). -/
def Obligations.AcceptedFrameOpensCycle : Prop :=
  (∀ (data : List Byte) (c : CommandFrame) (s : State), acceptedInCycle data c s →
    ∃ t, exec (.commandFrame data) s = .next t ∧ t.now = s.now ∧
      t.fsw.lastSeq = some c.seq ∧ t.fsw.ownSeq = c.seq ∧
      (∃ e, t.fsw.window = some ⟨c.seq, .all false, some e⟩ ∧ e.bridge = t.fsw.state ∧
        e.gap = isGap s.fsw.lastSeq c.seq) ∧
      t.fsw.windowTimer = some (s.now + t.cfg.link.period) ∧
      t.fsw.linkTimer = some (s.now + s.cfg.link.k * s.cfg.link.period) ∧ t.fsw.periodTimer = none ∧
      t.fsw.restTimer = s.fsw.restTimer ∧ t.fsw.gapMark = isGap s.fsw.lastSeq c.seq ∧
      t.fsw.counters = { s.fsw.counters with
        accepted := s.fsw.counters.accepted + 1
        gaps := if isGap s.fsw.lastSeq c.seq then s.fsw.counters.gaps + 1 else s.fsw.counters.gaps } ∧
      frameSent s t ∧ t.fsw.cPort.count = s.fsw.cPort.count + echoesDue s ∧
      t.fsw.state = (if c.run ∧ (s.fsw.state = .running ∨ s.fsw.runRelease = false) then .running else .standby) ∧
      t.fsw.runRelease = (s.fsw.runRelease && (c.run || decide (s.fsw.state = .running))) ∧
      t.pubX = ⟨(t.axis .x).f, (t.axis .x).referenced⟩ ∧ t.pubW = ⟨(t.axis .w).f, (t.axis .w).referenced⟩) ∧
  ∀ (data : List Byte) (c : CommandFrame) (w : Window) (s : State),
    (s.fsw.state = .standby ∨ s.fsw.state = .running) → s.fsw.window = some w → w.echo.isSome = true →
    s.fsw.restart = .requested w.seq → testCommand data = .passes c → s.fsw.lastSeq ≠ some c.seq →
    ∃ t, exec (.commandFrame data) s = .next t ∧
      t.fsw.restart = .due ∧ t.fsw.state = s.fsw.state ∧ t.fsw.window = none ∧ t.fsw.windowTimer = none ∧
      t.fsw.lastSeq = some c.seq ∧ t.fsw.dPort = s.fsw.dPort ∧ t.fsw.cPort.count = s.fsw.cPort.count + 1 ∧
      (∀ a, (t.axis a).slot = (s.axis a).slot ∧ (t.axis a).f = (s.axis a).f ∧
        (t.axis a).overlay = (s.axis a).overlay) ∧
      onlyWrites { fsw := true, axes := true, sgu := true, svr := true, evu := true } s t

/-- R23 to R25, R52, R77, R101: an accepted frame hands every slot to its owner. Without a request that activates a table,
each axis takes its absorb by R24 and each GENERAL output its mask bits; without any request the pending increment is
applied or dropped by R25, and only the owners' state changes. -/
def Obligations.AcceptedFrameSlotsTaken : Prop :=
  ∀ (data : List Byte) (c : CommandFrame) (s : State), acceptedInCycle data c s →
    ∃ t, exec (.commandFrame data) s = .next t ∧
      (∀ a, (t.axis a).slot = (c.axis.get a).slot ∧ (t.axis a).pendingInc = 0) ∧
      t.sgu.slot = c.spindle.slot ∧
      t.sgu.lastRequest = (if c.spindle.request ≤ 5 then c.spindle.request else 0) ∧
      (t.circuit .flood).request = c.coolant.flood ∧ (t.circuit .flood).level = min c.coolant.floodLevel 15 ∧
      (t.circuit .through).request = c.coolant.through ∧
      (t.circuit .through).level = min c.coolant.throughLevel 15 ∧
      (t.circuit .air).request = c.coolant.air ∧
      (c.service = [] ∨ byteAt c.service 1 ≠ 0xC5 →
        (∀ a,
          let amount := (c.axis.get a).absorb
          let o := (s.axis a).overlay
          let fits := decide ((o - amount).natAbs ≤ (s.cfg.axis.get a).overlayLimit)
          (t.axis a).absorbRefused = (decide (amount ≠ 0) && !fits) ∧
          ((s.axis a).pendingInc = 0 → o.natAbs ≤ (s.cfg.axis.get a).overlayLimit →
            (t.axis a).overlay = if fits then o - amount else o)) ∧
        ∀ n : Fin 32, (s.cfg.outputs[n]).owner = .general →
          let set := c.outputs.set.getLsbD n
          let clear := c.outputs.clear.getLsbD n
          let pulse := c.outputs.pulse.getLsbD n
          t.iou.outputs[n] =
            if (s.cfg.outputs[n]).pulse then
              if clear then ⟨false, none⟩
              else if pulse then ⟨true, some (s.now + 1000 * (s.cfg.outputs[n]).length)⟩
              else s.iou.outputs[n]
            else { s.iou.outputs[n] with on := !clear && (set || (s.iou.outputs[n]).on) }) ∧
      (c.service = [] →
        (∀ a,
          let amount := (c.axis.get a).absorb
          let limit := (s.cfg.axis.get a).overlayLimit
          let taken := amount ≠ 0 ∧ ((s.axis a).overlay - amount).natAbs ≤ limit
          let o := if taken then (s.axis a).overlay - amount else (s.axis a).overlay
          let sum := o + (s.axis a).pendingInc
          ((s.axis a).fault ≠ none ∨ pendantEnabled s = false ∨ (s.axis a).clamp ≠ .free → (t.axis a).overlay = o) ∧
          ((t.axis a).fault = none → pendantEnabled s = true → (s.axis a).clamp = .free →
            s.perms.handwheel = true → (∀ r ∈ s.cfg.interlock, r.target ≠ .handwheel) →
            (t.axis a).overlay = clampInt sum (-limit) limit ∧
            (limit < sum.natAbs → reported .handwheelLimit (.axis a) t.evu))) ∧
        onlyWrites { fsw := true, axes := true, pubs := true, sgu := true, clu := true, outputs := true, svr := true,
                     evu := true } s t)

/-- R76 to R79, R82, R83, R85, R87, R90: the coolant circuits in the drive frame of an accepted frame without a service
request. A circuit that is on stops by the causes of R82 and otherwise stays on; one that is OFF starts when the conditions
of R78 hold, to RUNNING or to PRIMING with its timer, and otherwise stays OFF; PURGING and FAULTED stand. THROUGH is tested
before AIR. Both channels are staged. A permission is taken as granted or withdrawn where it stands so through the frame,
and the gear record as it stands where the frame asks for no new range. The report of a circuit that tank low or the latch
stops in a drive frame is the model's choice (log 21). -/
def Obligations.FrameStartsAndStopsCoolant : Prop :=
  ∀ (data : List Byte) (c : CommandFrame) (s : State), acceptedInCycle data c s → c.service = [] →
    ∃ t, exec (.commandFrame data) s = .next t ∧
      let on (ci : Circuit) : Prop := (s.circuit ci).state.on = true
      let off (ci : Circuit) : Prop := (s.circuit ci).state = .off
      let taken := circuitTaken c.coolant s
      let halted := s.pdu.coolantStop = true ∨ s.inputOpt s.cfg.coolant.tankLow = true
      let asked (ci : Circuit) : Prop := (taken ci).request = true ∧ ¬ halted ∧ grantStands s (.coolant ci)
      let barred (ci : Circuit) : Prop := (taken ci).request = false ∨ halted ∨ denialStands s (.coolant ci)
      let gearStands := s.sgu.purgeWait = false ∧
        (c.spindle.request = 0 ∨ 5 < c.spindle.request ∨ c.spindle.request = s.sgu.lastRequest)
      let fast := inGear s = true ∧ s.cfg.coolant.unionMin ≤ throughSpeed s
      let kept (ci : Circuit) : Prop := t.circuit ci = taken ci
      let started (ci : Circuit) : Prop := (s.circuitCfg ci).enabled = true ∧ t.circuit ci =
        if pressureReady s ci then { taken ci with state := .running }
        else { taken ci with state := .priming, primeTimer := some (s.now + 1000 * (s.circuitCfg ci).prime) }
      let stopped (ci : Circuit) : Prop := t.circuit ci =
        if ci = .through then
          { taken ci with
            state := .purging, primeTimer := none, lossTimer := none
            purgeTimer := some (s.now + 1000 * s.cfg.coolant.purge) }
        else { taken ci with state := .off, primeTimer := none, lossTimer := none }
      (∀ ci,
        ((s.circuit ci).state = .purging ∨ (s.circuit ci).state = .faulted → kept ci) ∧
        (on ci → barred ci → stopped ci) ∧
        (on ci → halted → ci ≠ .through ∨ gearStands → reported .coolantStopped (.circuit ci) t.evu) ∧
        (off ci → barred ci ∨ (s.circuitCfg ci).enabled = false → kept ci) ∧
        (on ci → asked ci → ci ≠ .through ∨ (gearStands ∧ fast) → kept ci)) ∧
      (off .flood → asked .flood → (s.circuitCfg .flood).enabled = true → started .flood) ∧
      (on .through → gearStands → ¬ fast → stopped .through) ∧
      (off .through → asked .through → (s.circuitCfg .through).enabled = true → gearStands → fast →
        ¬ on .air ∨ barred .air → started .through) ∧
      (off .through → gearStands → ¬ fast ∨ (on .air ∧ asked .air) → kept .through) ∧
      (off .air → asked .air → (s.circuitCfg .air).enabled = true →
        (off .through ∧ (barred .through ∨ (s.circuitCfg .through).enabled = false)) ∨
          (s.circuit .through).state = .faulted → started .air) ∧
      (off .air → on .through ∨ (s.circuit .through).state = .purging ∨ (t.circuit .through).state.on = true →
        kept .air) ∧
      t.clu.pw0.staged = ⟨s.cfg.coolant.pw0Base, if (t.circuit .through).state.on then
        s.cfg.coolant.throughDuty.getD (t.circuit .through).level 0 else 0⟩ ∧
      t.clu.pw1.staged = ⟨s.cfg.coolant.pw1Base, if (t.circuit .flood).state.on then
        s.cfg.coolant.floodDuty.getD (t.circuit .flood).level 0 else 0⟩

/-- R58 to R62, R37, R39, R40: range requests and clamp requests in the drive frame of an accepted frame without a service
request. A new request for another range starts a shift in SETTLED, with THROUGH purged first if its pump is on, to
STOPPING or AWAIT_PERMIT by the GEAR_SHIFT permission; it becomes or removes the pending target during a shift and in
UNKNOWN, and does nothing else. A clamp request in FREE places the CLAMP hold, and clamping begins with the follower HELD
or DISABLED; in CLAMPED without one unclamping begins by the UNCLAMP permission. A permission is taken as granted or
withdrawn where it stands so through the frame. At the end of every drive frame, also of one whose request has activated an
axis table since the axis's part, clamping from HELD is that of the copy the part used (R17); the part leaves that copy's
clamp configuration in `frameClamp`. Model's choices: purge and answer come in the event of the frame (log 18), a DISABLED
axis begins clamping in the frame in which that is decided (log 14), and no clamping begins once the active copy configures
no clamp (log 56). -/
def Obligations.FrameShiftsAndClamps : Prop :=
  (∀ (a : Axis) (cmd : Option AxisCmd) (q : Byte) (s : State),
    ((axisFrame a cmd q s).axis a).frameClamp = (s.cfg.axis.get a).clamp) ∧
  (∀ (a : Axis) (s : State),
    let r := s.axis a
    let u := (axisFrameEnd a s).axis a
    let kept : Prop := u.clamp = r.clamp ∧ u.clampOut = r.clampOut ∧ u.clampTimer = r.clampTimer
    onlyWrites { axes := true } s (axisFrameEnd a s) ∧ otherAxesKept a s (axisFrameEnd a s) ∧
    (r.frameClamp = none ∨ (s.cfg.axis.get a).clamp = none → kept) ∧
    ∀ k j, r.frameClamp = some k → (s.cfg.axis.get a).clamp = some j →
      if r.clamp = .free ∧ u.follower = .held ∧ r.slot.clampRequest = true then
        u.clamp = .clamping ∧ u.clampOut = true ∧ u.clampTimer = some (s.now + 1000 * k.timeout)
      else kept) ∧
  ∀ (data : List Byte) (c : CommandFrame) (s : State), acceptedInCycle data c s → c.service = [] →
    ∃ t, exec (.commandFrame data) s = .next t ∧
      (s.sgu.purgeWait = false →
        let g := s.sgu
        let u := t.sgu
        let v := if c.spindle.request ≤ 5 then c.spindle.request else 0
        let asks (r : Gear) : Prop := Gear.ofNumber v = some r ∧ v ≠ g.lastRequest ∧ s.isValid .gear = true
        let stops : Prop := u.shift = .stopping ∧ u.stopTimer = some (s.now + 1000 * s.cfg.gear.stopTimeout)
        let waits : Prop := u.shift = .awaitPermit ∧ u.stopTimer = g.stopTimer
        let goesOn : Prop := u.target = g.target ∧ u.attempts = g.attempts ∧ u.current = g.current ∧
          u.purgeWait = false ∧ (g.shift ≠ .awaitPermit → u.shift = g.shift)
        ((∀ r, ¬ asks r) → goesOn ∧ u.pendingTarget = g.pendingTarget) ∧
        (∀ r, asks r →
          (g.shift = .failed ∨ (g.shift = .settled ∧ g.current = some r) →
            goesOn ∧ u.pendingTarget = g.pendingTarget) ∧
          (g.shift = .unknown → goesOn ∧ u.pendingTarget = some r) ∧
          (g.shift ≠ .failed → g.shift ≠ .settled → g.shift ≠ .unknown →
            goesOn ∧ u.pendingTarget = if g.target = some r then none else some r) ∧
          (g.shift = .settled → g.current ≠ some r →
            u.target = some r ∧ u.attempts = 1 ∧ u.meshElapsed = false ∧ u.attemptSpent = false ∧
            u.purgeWait = false ∧ u.current = g.current ∧ u.pendingTarget = g.pendingTarget ∧
            ((s.circuit .through).state.on = true → (t.circuit .through).state = .purging ∧
              (t.circuit .through).purgeTimer = some (s.now + 1000 * s.cfg.coolant.purge)) ∧
            (t.circuit .through).state.on = false ∧ (stops ∨ waits) ∧
            (grantStands s .gearShift → stops) ∧
            (denialStands s .gearShift → waits ∧ reported .shiftWaiting .spindle t.evu))) ∧
        (g.shift = .awaitPermit → (grantStands s .gearShift → stops) ∧ (denialStands s .gearShift → waits))) ∧
      ∀ a,
        let r := s.axis a
        let u := t.axis a
        let request := (c.axis.get a).slot.clampRequest
        let same : Prop := u.clamp = r.clamp ∧ u.clampOut = r.clampOut ∧ u.clampTimer = r.clampTimer
        ((s.cfg.axis.get a).clamp = none → r.clamp = .free → same ∧ u.holds.clamp = false) ∧
        ∀ k, (s.cfg.axis.get a).clamp = some k →
          let opens : Prop := u.clamp = .unclamping ∧ u.clampOut = false ∧
            u.clampTimer = some (s.now + 1000 * k.timeout)
          u.holds.clamp = (request || decide (r.clamp ≠ .free)) ∧
          (r.clamp = .free →
            if request = true ∧ (u.follower = .held ∨ u.follower = .disabled) then
              u.clamp = .clamping ∧ u.clampOut = true ∧ u.clampTimer = some (s.now + 1000 * k.timeout)
            else same) ∧
          (r.clamp = .clamped → request = true → same) ∧
          (r.clamp = .clamped → request = false →
            (opens ∨ same) ∧ (grantStands s (.unclamp a) → opens) ∧ (denialStands s (.unclamp a) → same)) ∧
          (r.clamp = .clamping ∨ r.clamp = .unclamping ∨ r.clamp = .clampFault → same)

/-- R146, R153: a frame accepted in LINK_LOST forms no drive frame and is echoed at once, with the feedback and the stale
flags that the most recent window close left, also where a return has come in an open window since; no slot but the service
slot is acted on. Without a service request the echo takes one event record and one reply, and nothing else changes. -/
def Obligations.LinkLostFrameEchoedAtOnce : Prop :=
  ∀ (data : List Byte) (c : CommandFrame) (s : State),
    s.fsw.state = .linkLost → s.fsw.restart ≠ .due → testCommand data = .passes c → s.fsw.lastSeq ≠ some c.seq →
    ∃ t, exec (.commandFrame data) s = .next t ∧ t.now = s.now ∧
      t.fsw.state = .linkLost ∧ t.fsw.lastSeq = some c.seq ∧ t.fsw.gapMark = isGap s.fsw.lastSeq c.seq ∧
      t.fsw.window = s.fsw.window ∧ t.fsw.ownSeq = s.fsw.ownSeq ∧ t.fsw.dPort = s.fsw.dPort ∧
      t.fsw.linkTimer = s.fsw.linkTimer ∧ t.fsw.periodTimer = s.fsw.periodTimer ∧
      t.fsw.cPort.count = s.fsw.cPort.count + 1 ∧
      (∃ rest, t.fsw.cPort.last = some (0x12#8 :: c.seq :: rest) ∧
        (∀ a, slice rest (4 + 17 * a.index) 4 = sle32 (s.axis a).feedback ∧
          (rest.getD (19 + 17 * a.index) 0).getLsbD 3 = (s.axis a).stale) ∧
        (rest.getD 100 0).getLsbD 1 = s.sgu.closedStale) ∧
      (∀ a, (t.axis a).slot = (s.axis a).slot ∧ (t.axis a).f = (s.axis a).f ∧
        (t.axis a).overlay = (s.axis a).overlay) ∧
      t.sgu.slot = s.sgu.slot ∧ t.sgu.lastRequest = s.sgu.lastRequest ∧
      (∀ ci, (t.circuit ci).request = (s.circuit ci).request ∧ (t.circuit ci).level = (s.circuit ci).level) ∧
      (c.service = [] →
        t.evu = s.evu.afterChoice ∧ t.svr = s.svr.afterChoice c.seq ∧
        onlyWrites { fsw := true, svr := true, evu := true } s t)

/-- R26: the target of every drive frame is setpoint + O, limited to the position span. -/
def Obligations.TargetIsSetpointPlusOverlay : Prop :=
  ∀ (c : Instr) (s t : State), exec c s = .next t → frameSent s t → ∀ a,
    (t.axis a).t = clampInt ((t.axis a).slot.setpoint + (t.axis a).overlay) (-2147000000) 2147000000

/-- R27, R33, R34, R39: what a drive frame does to the motion of each axis, from a state between drive frames as
`AxisRec.motionWf` says and with no table activated in it. Between two frames with the drive enable forwarded f moves by
the step, the step changes by no more than the larger of amax and dmax and stays within vmax, it does not grow while the
axis is HOLDING or HELD, the distance outside the soft window does not increase, and f stands while the clamp is not FREE.
A hold that stands throughout makes the axis HOLDING or HELD. -/
def Obligations.MotionStaysInEnvelope : Prop :=
  ∀ (c : Instr) (s t : State) (a : Axis), exec c s = .next t → frameSent s t → t.cfg = s.cfg →
    let p := s.cfg.axis.get a
    let r := s.axis a
    let u := t.axis a
    0 < p.amax → 0 < p.dmax → p.vsetup ≤ p.vmax → r.motionWf p a = true →
    u.motionWf p a = true ∧
    (r.enableFwd = true → u.enableFwd = true →
      u.f = r.f + u.s ∧ (u.s - r.s).natAbs ≤ max p.amax p.dmax ∧
      (u.follower = .holding ∨ u.follower = .held → u.s.natAbs ≤ r.s.natAbs) ∧
      (windowed a r.referenced = true → windowed a u.referenced = true → outside p u.f ≤ outside p r.f) ∧
      (r.clamp ≠ .free → u.clamp ≠ .free → u.f = r.f) ∧
      (noRequest c = true →
        r.holds.feedHold = true ∨ r.holds.pendantLost = true ∨ r.holds.coolantLoss = true ∨ r.holds.fault = true →
        u.follower = .holding ∨ u.follower = .held))

/-- R53 to R55: the station 6 part of a drive frame. The enable is forwarded only with a VALID gear table, a return since
the reset, no spindle fault and a bridge state that allows it. The demand is 0 without the enable, with SPINDLE_STOP, and
outside SETTLED and CREEPING; it is the creep demand in CREEPING, and the scaled speed of the slot in a settled range.
Model's choices: the creep demand also stands in STANDBY with the stopping mark set (log 57), and with the mark set the
enable still follows the list of R55 (log 62). -/
def Obligations.SpindleDemandAndEnable : Prop :=
  ∀ (c : Instr) (s t : State), exec c s = .next t → frameSent s t →
    let g := t.sgu
    (g.enableFwd = true →
      t.isValid .gear = true ∧ g.returned = true ∧ g.fault = none ∧
      (t.fsw.state = .running ∨ (t.fsw.state = .linkLost ∧ s.sgu.enableFwd = true) ∨
        (t.fsw.state = .standby ∧ g.stopping = true))) ∧
    (g.enableFwd = false ∨ s.pdu.spindleStop = true → g.demand = 0 ∧ g.speedLimited = false) ∧
    (noRequest c = true →
      (s.sgu.shift ≠ .settled → s.sgu.shift ≠ .creeping → g.demand = 0 ∧ g.speedLimited = false) ∧
      (s.sgu.shift = .settled → t.fsw.state ≠ .running ∨ s.sgu.current = none ∨ s.sgu.current = some .neutral ∨
          g.slot.enable = false → g.demand = 0 ∧ g.speedLimited = false) ∧
      (s.sgu.shift = .creeping → g.speedLimited = false ∧
        g.demand = if g.enableFwd = true ∧ s.pdu.spindleStop = false then creepDemand s else 0) ∧
      (t.fsw.state = .running → s.isValid .gear = true → g.fault = none → s.sgu.returned = true →
        g.slot.enable = true ∨ s.sgu.shift = .stopping ∨ s.sgu.shift = .shifting ∨ s.sgu.shift = .creeping ∨
          s.sgu.shift = .confirming ∨ s.sgu.shift = .retryPause → g.enableFwd = true) ∧
      ∀ r, settledRange s = some r → g.shift = .settled → s.sgu.shift = .settled → t.fsw.state = .running →
        g.enableFwd = true → g.slot.enable = true → s.pdu.spindleStop = false → s.perms.spindleRun = true →
        (∀ row ∈ s.cfg.interlock, row.target ≠ .spindleRun) →
        let d := windowSpeed r g.slot.speed
        let m := (roundDiv (d * r.num : Nat) r.den).natAbs
        if g.slot.speed = 0 then g.demand = 0 ∧ g.speedLimited = false
        else g.demand = (if g.slot.ccw then -1 else 1) * (min m s.cfg.gear.motorMax : Nat) ∧
          g.speedLimited = (decide (d ≠ g.slot.speed) || decide (s.cfg.gear.motorMax < m)))

/-- R13, R14, R161, R164, R202: every drive frame that leaves carries, for each station, the demand and enable of its part,
whether or not the enable is forwarded, and the service segment that the Service Responder gives it, closed by the CRC.
For an axis the demand is f + C with the C of the frame's entry in its sent-compensation list; that is the C it still
holds, unless a request of the same frame activates a table (R17, R165). -/
def Obligations.DriveFrameCarriesDemands : Prop :=
  ∀ (c : Instr) (s t : State), exec c s = .next t → frameSent s t →
    let v := svrAtFrame c s
    let segments := stations.flatMap (segmentFor v)
    t.fsw.dPort.last = some (withCheck
      ([0x21#8, t.fsw.ownSeq] ++ le16 (42 + segments.length) ++
        stations.flatMap (fun st =>
          match st with
          | .axis a => stationBlock (t.axis a).demand (t.axis a).enableFwd (segmentFor v st)
          | .spindle => stationBlock t.sgu.demand t.sgu.enableFwd (segmentFor v st)) ++
        segments)) ∧
    (∀ a, ∃ k, (t.axis a).sent.getLast? = some (t.fsw.ownSeq, k) ∧ (t.axis a).demand = (t.axis a).f + k ∧
      (noRequest c = true → (t.axis a).comp = k)) ∧
    (∀ st, (v.pass.get st).phase = .awaitingFrame →
      (t.svr.pass.get st).phase = .outstanding ∧ (t.svr.pass.get st).tag = (v.pass.get st).tag ∧
      (t.svr.pass.get st).timer = some (t.now + 1000 * (v.pass.get st).length)) ∧
    t.svr.broadcast = none

/-- R202: every echo frame and every drive frame that the bridge forms passes the frame check of R143 and R149, whole and
without padding. -/
def Obligations.FramesSentPassTheCheck : Prop :=
  (∀ (q : Byte) (e : EchoStatus) (s : State), (∀ r, s.svr.chosen q = some r → r.bytes.length ≤ 44) →
    ∀ own, checkedFrame own (echoBytes q e s) = some (echoBytes q e s)) ∧
  (∀ (q : Byte) (s : State), (∀ st, (segmentFor s.svr st).length ≤ 43) →
    ∀ own, checkedFrame own (driveBytes q s) = some (driveBytes q s))

/-! ## Returns and the timers of the cycle path -/

/-- R15, R43, R45, R149: a return of an axis station is taken. With other stations still missing, nothing else changes
but the station's own records, a reply segment and the events; the last return closes the window. Model's
choice (log 15): the following error is tested before the drive status, so it makes the fault record when both arise. -/
def Obligations.AxisReturnTaken : Prop :=
  ∀ (data : List Byte) (r : ReturnFrame) (a : Axis) (w : Window) (s : State),
    testReturn data = some r → r.station = .axis a → s.fsw.window = some w → r.seq = w.seq →
    w.taken.get (.axis a) = false →
    ∃ t, exec (.driveReturn data) s = .next t ∧ t.now = s.now ∧
      t.fsw.stations = s.fsw.stations.set (.axis a) ⟨0, true, false⟩ ∧ t.fsw.counters = s.fsw.counters ∧
      (t.axis a).driveFaultMem = decide (r.status = 3) ∧
      (let still := decide ((s.axis a).follower = .held) || decide ((s.axis a).follower = .disabled)
       let drive := if r.status = 3 ∧ (s.axis a).driveFaultMem = false
        then some (AxisFault.mk .driveFault true r.code) else none
       (sentComp (s.axis a).sent r.seq = none →
          (t.axis a).corrected = (s.axis a).corrected ∧ (t.axis a).returned = (s.axis a).returned ∧
          (t.axis a).fault = (s.axis a).fault.or drive) ∧
       ∀ k, sentComp (s.axis a).sent r.seq = some k →
          let late := decide ((s.axis a).enableFwd = true ∧
            (s.cfg.axis.get a).errorLimit < (r.actual - k - (s.axis a).f).natAbs)
          (t.axis a).corrected = r.actual - k ∧ (t.axis a).returned = true ∧
          (t.axis a).fault =
            (s.axis a).fault.or (if late then some ⟨.followingError, still, 0⟩ else drive)) ∧
      ((∃ st, st ≠ .axis a ∧ w.taken.get st = false) →
        t.fsw = { s.fsw with
          stations := s.fsw.stations.set (.axis a) ⟨0, true, false⟩
          window := some { w with taken := w.taken.set (.axis a) true } } ∧
        otherAxesKept a s t ∧ onlyWrites { fsw := true, axes := true, svr := true, evu := true } s t) ∧
      ((∀ st, st ≠ .axis a → w.taken.get st = true) →
        t.fsw.window = none ∧ t.fsw.windowTimer = none ∧ t.fsw.cPort.count = s.fsw.cPort.count + echoesDue s ∧
        ∀ a', (t.axis a').stale = (if a' = a then (s.axis a).uncorrected || (sentComp (s.axis a).sent r.seq).isNone
          else (s.axis a').uncorrected))

/-- R56, R57, R62, R63, R149: a return of station 6 is taken. At standstill in STOPPING the attempt goes on to SHIFTING,
or to CONFIRMING with the target sensor active already. The stale mark is cleared at once, and the flag that echoes show as
the window closes (R153). -/
def Obligations.SpindleReturnTaken : Prop :=
  ∀ (data : List Byte) (r : ReturnFrame) (w : Window) (s : State),
    testReturn data = some r → r.station = .spindle → s.fsw.window = some w → r.seq = w.seq →
    w.taken.get .spindle = false →
    ∃ t, exec (.driveReturn data) s = .next t ∧ t.now = s.now ∧
      t.fsw.stations = s.fsw.stations.set .spindle ⟨0, true, false⟩ ∧ t.fsw.counters = s.fsw.counters ∧
      (let rest := decide (r.actual.natAbs ≤ s.cfg.gear.stopThreshold)
       let drive := if r.status = 3 ∧ s.sgu.driveFaultMem = false
        then some (SpindleFault.mk .driveFault r.code) else none
       let g : Sgu := { s.sgu with
         actual := r.actual, stale := false, returned := true, driveFaultMem := decide (r.status = 3)
         fault := s.sgu.fault.or drive, stopping := s.sgu.stopping && !rest }
       let shifted : Sgu := { g with
         stopTimer := none, current := none
         shift := if targetSensed s then .confirming else .shifting
         meshTimer := s.startMs s.cfg.gear.meshTime, attemptTimer := s.startMs s.cfg.gear.attemptTimeout
         creepTimer := if targetSensed s then none else g.creepTimer
         confirmTimer := if targetSensed s then s.startMs s.cfg.gear.confirmTime else g.confirmTimer }
       let result := if s.sgu.shift = .stopping ∧ rest then shifted else g
       ((∃ st, st ≠ .spindle ∧ w.taken.get st = false) →
         t.sgu = result ∧
         t.fsw = { s.fsw with
           stations := s.fsw.stations.set .spindle ⟨0, true, false⟩
           window := some { w with taken := w.taken.set .spindle true } } ∧
         onlyWrites { fsw := true, sgu := true, svr := true, evu := true } s t) ∧
       ((∀ st, st ≠ .spindle → w.taken.get st = true) →
         { t.sgu with stopping := result.stopping } = { result with closedStale := false } ∧ t.fsw.window = none ∧ t.fsw.windowTimer = none ∧
         t.fsw.cPort.count = s.fsw.cPort.count + echoesDue s))

/-- R149, R158: a frame at the D-port that fails a test is discarded and counted, and nothing else changes. -/
def Obligations.ReturnDiscarded : Prop :=
  ∀ (data : List Byte) (s : State),
    (∀ r w, testReturn data = some r → s.fsw.window = some w → r.seq ≠ w.seq ∨ w.taken.get r.station = true) →
    ∃ t, exec (.driveReturn data) s = .next t ∧ onlyWrites { fsw := true } s t ∧
      t.fsw = { s.fsw with counters := { s.fsw.counters with discarded := s.fsw.counters.discarded + 1 } }

/-- R162, R163: the reply segment of a taken return answers the request in flight with its tag; any other is discarded.
PASS_THROUGH_TIMER_EXPIRY: DRIVE_TIMEOUT joins the queue and the record is NONE; a reply taken later is discarded (`now`
by log 2). -/
def Obligations.PassThroughAnswered : Prop :=
  (∀ (data : List Byte) (r : ReturnFrame) (w : Window) (s : State),
    testReturn data = some r → s.fsw.window = some w → r.seq = w.seq → w.taken.get r.station = false →
    (∃ st, st ≠ r.station ∧ w.taken.get st = false) →
    ∃ t, exec (.driveReturn data) s = .next t ∧
      let p := s.svr.pass.get r.station
      (r.segment = none → t.svr = s.svr) ∧
      ∀ g, r.segment = some g →
        if p.phase = .outstanding ∧ g.tag = p.tag then
          t.svr = { s.svr with
            pass := s.svr.pass.set r.station { p with phase := .none, timer := none }
            queue := s.svr.queue ++ [⟨r.station, g.tag, g.status, g.result, true⟩] }
        else t.svr = s.svr) ∧
  ∀ (s : State) (st : Station) (e : Nat), (s.svr.pass.get st).timer = some e →
    ∃ t, exec (.passThroughTimerExpiry st) s = .next t ∧ t.now = max s.now e ∧
      t.svr = { s.svr with
        pass := s.svr.pass.set st { s.svr.pass.get st with phase := .none, timer := none }
        queue := s.svr.queue ++ [⟨st, (s.svr.pass.get st).tag, 0x0D#8, [], false⟩] } ∧
      (∀ g, driveReply st g t = t) ∧ onlyWrites { svr := true } s t

/-- WINDOW_TIMER_EXPIRY (R150, R151, R16): the window closes; each missing station is counted, marked stale, in its own
mark and in the flag that echoes show until the next close, and, beyond the miss limit, reported silent; the echo of a command frame is sent. The clause `t.now = max s.now e`, here and at
every timer expiry, is the model's reading of an expiry command (log 2). -/
def Obligations.WindowTimerClosesWindow : Prop :=
  ∀ (s : State) (e : Nat) (w : Window), s.fsw.windowTimer = some e → s.fsw.window = some w →
    ∃ t, exec .windowTimerExpiry s = .next t ∧ t.now = max s.now e ∧
      t.fsw.window = none ∧ t.fsw.windowTimer = none ∧ t.fsw.dPort = s.fsw.dPort ∧
      t.fsw.cPort.count = s.fsw.cPort.count + echoesDue s ∧ t.fsw.counters = s.fsw.counters ∧
      (∀ st, t.fsw.stations.get st =
        let r := s.fsw.stations.get st
        let miss := min (r.miss + 1) 255
        if w.taken.get st then r
        else ⟨miss, r.seen, r.silent || (r.seen && decide (s.cfg.link.missLimit < miss))⟩) ∧
      (∀ a,
        let r := s.fsw.stations.get (.axis a)
        (t.axis a).stale = (!w.taken.get (.axis a) || (s.axis a).uncorrected) ∧ (t.axis a).uncorrected = false ∧
        (t.axis a).feedback = sat32 ((s.axis a).corrected - (s.axis a).overlay) ∧
        (t.axis a).f = (s.axis a).f ∧ (t.axis a).overlay = (s.axis a).overlay ∧
        (t.axis a).fault =
          if w.taken.get (.axis a) = false ∧ r.silent = false ∧ r.seen ∧
              s.cfg.link.missLimit < min (r.miss + 1) 255 then
            (s.axis a).fault.or (some ⟨.driveSilent, true, 0⟩)
          else (s.axis a).fault) ∧
      t.sgu.stale = (!w.taken.get .spindle) ∧ t.sgu.closedStale = (!w.taken.get .spindle) ∧
      onlyWrites { fsw := true, axes := true, sgu := true, svr := true, evu := true } s t

/-- PERIOD_TIMER_EXPIRY (R148, R11, R12, R77): an open window closes, and a self-paced frame of the own sequence plus 1
leaves, formed from the slots last taken with every coolant request clear; the compensation follows its limited target
by at most the slew. By the model's choices a self-paced frame clears ABSORB_REFUSED (log 13), and `now` is that of
log 2. -/
def Obligations.PeriodTimerSendsFrame : Prop :=
  ∀ (s : State) (e : Nat), s.fsw.periodTimer = some e →
    ∃ t, exec .periodTimerExpiry s = .next t ∧ t.now = max s.now e ∧
      frameSent s t ∧ t.fsw.ownSeq = s.fsw.ownSeq + 1 ∧
      t.fsw.window = some ⟨s.fsw.ownSeq + 1, .all false, none⟩ ∧
      t.fsw.windowTimer = some (t.now + s.cfg.link.period) ∧
      t.fsw.periodTimer =
        (if t.fsw.state = .standby ∧ anyEnable t = false then none else some (t.now + s.cfg.link.period)) ∧
      t.fsw.lastSeq = s.fsw.lastSeq ∧ t.fsw.linkTimer = s.fsw.linkTimer ∧
      t.fsw.cPort.count = s.fsw.cPort.count + echoesDue s ∧ t.fsw.counters = s.fsw.counters ∧
      (∀ a,
        let dir := if (t.axis a).s < 0 then .negative else if 0 < (t.axis a).s then .positive else (s.axis a).dir
        let p := s.cfg.axis.get a
        let bl : Int := if dir = Dir.negative then -p.backlash else 0
        let ep := pitchTerm t a (t.axis a).f
        let ex := crossTerm { t with pubX := s.pubX, pubW := s.pubW } a
        let limited := clampInt (ep + ex + bl) (-p.ceiling) p.ceiling
        (t.axis a).slot = (s.axis a).slot ∧ (t.axis a).pendingInc = 0 ∧ (t.axis a).absorbRefused = false ∧
        (t.axis a).dir = dir ∧
        (t.axis a).comp = (s.axis a).comp + clampInt (limited - (s.axis a).comp) (-p.slew) p.slew) ∧
      t.sgu.slot = s.sgu.slot ∧ t.sgu.lastRequest = s.sgu.lastRequest ∧
      (∀ ci, (t.circuit ci).request = false ∧ (t.circuit ci).level = (s.circuit ci).level) ∧
      onlyWrites { fsw := true, axes := true, pubs := true, sgu := true, clu := true, svr := true, evu := true } s t

/-- LINK_TIMER_EXPIRY in STANDBY or RUNNING (R154, R103, R71): the bridge enters LINK_LOST with its holds, its event and
its counter, GENERAL outputs take their link-loss action, a waiting shift is cancelled, and the first self-paced frame
leaves. Model's choices: a RESTART whose window is still open, or whose warm reset is due, comes before the loss of the
link (log 47); `now` is that of log 2. -/
def Obligations.LinkTimerEntersLinkLost : Prop :=
  ∀ (s : State) (e : Nat), s.fsw.linkTimer = some e → (s.fsw.state = .standby ∨ s.fsw.state = .running) →
    (s.fsw.restart = .none → ∃ t, exec .linkTimerExpiry s = .next t ∧ t.now = max s.now e ∧
      t.fsw.state = .linkLost ∧ t.fsw.linkTimer = none ∧ t.fsw.lastSeq = s.fsw.lastSeq ∧
      t.fsw.counters = { s.fsw.counters with losses := s.fsw.counters.losses + 1 } ∧
      frameSent s t ∧ t.fsw.ownSeq = s.fsw.ownSeq + 1 ∧
      t.fsw.window = some ⟨s.fsw.ownSeq + 1, .all false, none⟩ ∧
      t.fsw.periodTimer = some (t.now + s.cfg.link.period) ∧
      t.fsw.cPort.count = s.fsw.cPort.count + echoesDue s ∧
      (∀ a, (t.axis a).holds.linkLost = true ∧ (t.axis a).holds.standby = false) ∧
      reported .linkLost .link t.evu ∧
      (∀ n : Fin 32, (s.cfg.outputs[n]).owner = .general →
        t.iou.outputs[n] = if (s.cfg.outputs[n]).lossOff then ⟨false, none⟩ else s.iou.outputs[n]) ∧
      t.sgu.pendingTarget = none ∧
      (s.sgu.shift = .awaitPermit → t.sgu.target = none ∧ t.sgu.current = s.sgu.current ∧
        t.sgu.shift = if s.sgu.current.isSome then .settled else .unknown) ∧
      (∀ ci, (t.circuit ci).request = false) ∧
      onlyWrites { fsw := true, axes := true, pubs := true, sgu := true, clu := true, outputs := true, svr := true,
                   evu := true } s t) ∧
    (restartWf s = true → s.fsw.restart ≠ .none → ∃ t, exec .linkTimerExpiry s = .next t ∧ t.now = max s.now e ∧
      t.fsw.restart = .due ∧ t.fsw.state = .standby ∧ t.fsw.window = none ∧ t.fsw.linkTimer = none ∧
      t.fsw.dPort = s.fsw.dPort ∧ t.fsw.counters = s.fsw.counters ∧
      t.fsw.cPort.count = s.fsw.cPort.count + echoesDue s ∧
      onlyWrites { fsw := true, axes := true, sgu := true, svr := true, evu := true } s t)

/-- REST_TIMER_EXPIRY in LINK_LOST (R155): STANDBY with the run-release mark, LINK_LOST off every axis, STANDBY on the
axes with an enable forwarded that are not HELD, and the stopping mark (`now` by log 2). -/
def Obligations.RestTimerEntersStandby : Prop :=
  ∀ (s : State) (e : Nat), s.fsw.restTimer = some e → s.fsw.state = .linkLost →
    ∃ t, exec .restTimerExpiry s = .next t ∧ t.now = max s.now e ∧
      t.fsw = { s.fsw with state := .standby, runRelease := true, restTimer := none } ∧
      (∀ a, (t.axis a).apart = { s.axis a with
        holds := { (s.axis a).holds with
          interlock := false, linkLost := false
          standby := (s.axis a).enableFwd && decide ((s.axis a).follower ≠ .held) } }) ∧
      t.sgu = { s.sgu with stopping := s.sgu.enableFwd } ∧
      onlyWrites { fsw := true, axes := true, sgu := true } s t

/-! ## Inputs, outputs, clamps -/

/-- INPUT_LEVEL_CHANGE (R95): with a debounce time the conditioned state stands and the timer is started or stopped;
without one the conditioned state takes the presented state at once. A level that already stands is no change (model's
choice, log 33). DEBOUNCE_TIMER_EXPIRY (R95 to R97): the conditioned state takes the presented state (`now` by log 2). A
change reaches the limits, clamps, gear sensors and coolant circuits as `inputTaken` says. -/
def Obligations.InputsConditioned : Prop :=
  (∀ (s : State) (n : Fin 48) (high : Bool),
    ∃ t, exec (.inputLevelChange n high) s = .next t ∧ t.now = s.now ∧
      if (s.iou.inputs[n]).raw = high then onlyWrites { } s t
      else if (inputCfg s n).debounce = 0 then inputTaken n high s t
      else
        t.iou.inputs = s.iou.inputs.set n ⟨high, s.input n,
          if presented (inputCfg s n) high = s.input n then none
          else some (s.now + 1000 * (inputCfg s n).debounce)⟩ ∧
        onlyWrites { inputs := true } s t) ∧
  ∀ (s : State) (n : Fin 48) (e : Nat), (s.iou.inputs[n]).timer = some e →
    ∃ t, exec (.debounceTimerExpiry n) s = .next t ∧ t.now = max s.now e ∧
      inputTaken n (s.iou.inputs[n]).raw s t

/-- CLAMP_TIMER_EXPIRY (R41, R45): CLAMP_FAULT with the output as it stands, the CLAMP hold, and CLAMP_TIMEOUT.
PULSE_TIMER_EXPIRY (R102): the output is turned off; no other output changes (`now` by log 2). -/
def Obligations.ClampAndPulseTimers : Prop :=
  (∀ (s : State) (a : Axis) (e : Nat), (s.axis a).clampTimer = some e →
    ∃ t, exec (.clampTimerExpiry a) s = .next t ∧ t.now = max s.now e ∧
      (let r := s.axis a
       let still := decide (r.follower = .held) || decide (r.follower = .disabled)
       (t.axis a).apart = { r with
         clamp := .clampFault, clampTimer := none, fault := r.fault.or (some ⟨.clampTimeout, still, 0⟩)
         holds := { r.holds with interlock := false, clamp := true, fault := r.holds.fault || r.fault.isNone } } ∧
       t.evu = s.evu.take ⟨if r.fault.isSome then .secondFault else .axisFault, .axis a, 6, s.fsw.lastSeq⟩) ∧
      otherAxesKept a s t ∧ onlyWrites { axes := true, evu := true } s t) ∧
  ∀ (s : State) (n : Fin 32) (e : Nat), (s.iou.outputs[n]).timer = some e →
    ∃ t, exec (.pulseTimerExpiry n) s = .next t ∧ t.now = max s.now e ∧
      (t.iou.outputs[n]).timer = none ∧
      ((s.cfg.outputs[n]).owner = .general → (t.iou.outputs[n]).on = false) ∧
      (∀ m : Fin 32, m ≠ n →
        outputApart s.cfg.outputs[m] t.iou.outputs[m] = outputApart s.cfg.outputs[m] s.iou.outputs[m]) ∧
      onlyWrites { outputs := true } s t

/-! ## Gear shift -/

/-- STOP_TIMER_EXPIRY (R62, R68): a shift in STOPPING fails with NOT_STOPPED. MESH_TIMER_EXPIRY (R63): a shift to a
range I to IV begins to creep. CREEP_TIMER_EXPIRY (R64): the creep direction is reversed (`now` by log 2; the
sensor timer stopped with the others by log 17). -/
def Obligations.StopMeshAndCreepTimers : Prop :=
  ∀ (s : State) (e : Nat),
    (s.sgu.stopTimer = some e → ∃ t, exec .stopTimerExpiry s = .next t ∧ t.now = max s.now e ∧
      (if s.sgu.shift = .stopping then
        t.sgu = { s.sgu with
          shift := .failed, current := none, pendingTarget := none, lastFailure := some .notStopped
          stopTimer := none, meshTimer := none, attemptTimer := none, creepTimer := none, confirmTimer := none
          retryTimer := none, sensorTimer := none } ∧
        t.evu = s.evu.take ⟨.gearShiftFailed, .spindle, gearNumber s.sgu.target + 256, s.fsw.lastSeq⟩
      else t.sgu = { s.sgu with stopTimer := none } ∧ t.evu = s.evu) ∧
      onlyWrites { sgu := true, evu := true } s t) ∧
    (s.sgu.meshTimer = some e → ∃ t, exec .meshTimerExpiry s = .next t ∧ t.now = max s.now e ∧
      t.sgu = (if s.sgu.shift = .shifting ∧ s.sgu.target ≠ none ∧ s.sgu.target ≠ some .neutral then
        { s.sgu with
          meshTimer := none, meshElapsed := true, shift := .creeping, creepDir := .positive
          creepTimer := some (t.now + 1000 * s.cfg.gear.creepHalf) }
      else { s.sgu with meshTimer := none, meshElapsed := true }) ∧ onlyWrites { sgu := true } s t) ∧
    (s.sgu.creepTimer = some e → ∃ t, exec .creepTimerExpiry s = .next t ∧ t.now = max s.now e ∧
      t.sgu = (if s.sgu.shift = .creeping then
        { s.sgu with
          creepDir := if s.sgu.creepDir = .positive then .negative else .positive
          creepTimer := some (t.now + 1000 * s.cfg.gear.creepHalf) }
      else { s.sgu with creepTimer := none }) ∧ onlyWrites { sgu := true } s t)

/-- ATTEMPT_TIMER_EXPIRY (R63 to R66, R68): in SHIFTING and CREEPING the attempt fails with NO_MESH, to RETRY_PAUSE or,
at the last attempt, to FAILED; in CONFIRMING the attempt-spent mark is set. RETRY_TIMER_EXPIRY (R67, R71): the next
attempt is counted and begins with STOPPING, waits in AWAIT_PERMIT, or in LINK_LOST is cancelled, by the GEAR_SHIFT
permission (`now` by log 2; the sensor timer stopped outside SETTLED and UNKNOWN by log 17). -/
def Obligations.AttemptAndRetryTimers : Prop :=
  (∀ (s : State) (e : Nat), s.sgu.attemptTimer = some e →
    ∃ t, exec .attemptTimerExpiry s = .next t ∧ t.now = max s.now e ∧
      (let ended : Sgu := { s.sgu with
        attemptTimer := none, meshTimer := none, creepTimer := none, confirmTimer := none
        lastFailure := some .noMesh }
       if s.sgu.shift = .shifting ∨ s.sgu.shift = .creeping then
        if s.sgu.attempts < s.cfg.gear.maxAttempts then
          t.sgu = { ended with
            shift := .retryPause, retryTimer := some (t.now + 1000 * s.cfg.gear.retryPause) } ∧ t.evu = s.evu
        else
          t.sgu = { ended with
            shift := .failed, current := none, pendingTarget := none, stopTimer := none, retryTimer := none
            sensorTimer := none } ∧
          t.evu = s.evu.take ⟨.gearShiftFailed, .spindle, gearNumber s.sgu.target + 512, s.fsw.lastSeq⟩
       else if s.sgu.shift = .confirming then
        t.sgu = { s.sgu with attemptTimer := none, attemptSpent := true } ∧ t.evu = s.evu
       else t.sgu = { s.sgu with attemptTimer := none } ∧ t.evu = s.evu) ∧
      onlyWrites { sgu := true, evu := true } s t) ∧
  ∀ (s : State) (e : Nat), s.sgu.retryTimer = some e → s.sgu.shift = .retryPause → s.perms = evalPerms s →
    ∃ t, exec .retryTimerExpiry s = .next t ∧ t.now = max s.now e ∧
      (let g : Sgu := { s.sgu with
        retryTimer := none, attempts := s.sgu.attempts + 1, meshElapsed := false, attemptSpent := false }
       if s.perms.gearShift then
        t.sgu = { g with
          shift := .stopping, stopTimer := some (t.now + 1000 * s.cfg.gear.stopTimeout), sensorTimer := none } ∧
        t.evu = s.evu
       else if s.fsw.state = .linkLost then
        t.sgu.target = none ∧ t.sgu.current = s.sgu.current ∧ t.sgu.attempts = s.sgu.attempts + 1 ∧
        t.sgu.shift = (if s.sgu.current.isSome then .settled else .unknown) ∧
        t.evu = s.evu.take ⟨.shiftCancelled, .spindle, gearNumber s.sgu.target, s.fsw.lastSeq⟩
       else
        t.sgu = { g with shift := .awaitPermit, sensorTimer := none } ∧
        t.evu = s.evu.take ⟨.shiftWaiting, .spindle, gearNumber s.sgu.target, s.fsw.lastSeq⟩) ∧
      onlyWrites { sgu := true, evu := true } s t

/-- CONFIRM_TIMER_EXPIRY (R65, R66): with no other sensor active the shift is done, and a pending target that differs
starts the next one; another active sensor fails the attempt with SENSOR_CONFLICT (`now` by log 2; the sensor timer at the
entry to SETTLED by log 17). -/
def Obligations.ConfirmTimerEndsShift : Prop :=
  ∀ (s : State) (e : Nat) (g : Gear), s.sgu.confirmTimer = some e → s.sgu.shift = .confirming →
    s.sgu.target = some g →
    ∃ t, exec .confirmTimerExpiry s = .next t ∧ t.now = max s.now e ∧
      onlyWrites { sgu := true, clu := true, evu := true } s t ∧
      if gears.all fun g' => !sensorActive s g' || decide (g' = g) then
        (s.sgu.pendingTarget = none ∨ s.sgu.pendingTarget = some g →
          t.sgu = { s.sgu with
            shift := .settled, current := some g, target := none, pendingTarget := none, lastFailure := none
            meshTimer := none, attemptTimer := none, confirmTimer := none
            sensorTimer := if sensorActive s g then none else some (t.now + 1000 * s.cfg.gear.confirmTime) } ∧
          t.evu = s.evu.take ⟨.gearSettled, .spindle, g.number, s.fsw.lastSeq⟩ ∧
          onlyWrites { sgu := true, evu := true } s t) ∧
        (∀ r, s.sgu.pendingTarget = some r → r ≠ g →
          t.sgu.current = some g ∧ t.sgu.target = some r ∧ t.sgu.attempts = 1 ∧ t.sgu.pendingTarget = none ∧
          (t.sgu.shift = .stopping ∨ t.sgu.shift = .awaitPermit) ∧ throughPumpOn t = false)
      else
        { t.sgu with shift := s.sgu.shift, retryTimer := s.sgu.retryTimer, current := s.sgu.current
                     pendingTarget := s.sgu.pendingTarget, stopTimer := s.sgu.stopTimer
                     sensorTimer := s.sgu.sensorTimer } =
          { s.sgu with
            meshTimer := none, attemptTimer := none, creepTimer := none, confirmTimer := none
            lastFailure := some .sensorConflict } ∧
        t.sgu.shift = (if s.sgu.attempts < s.cfg.gear.maxAttempts then .retryPause else .failed) ∧
        (s.sgu.attempts < s.cfg.gear.maxAttempts →
          t.sgu.retryTimer = some (t.now + 1000 * s.cfg.gear.retryPause) ∧ t.evu = s.evu) ∧
        (s.cfg.gear.maxAttempts ≤ s.sgu.attempts → t.sgu.retryTimer = none ∧ t.sgu.current = none ∧
          t.evu = s.evu.take ⟨.gearShiftFailed, .spindle, g.number + 768, s.fsw.lastSeq⟩)

/-- SENSOR_TIMER_EXPIRY (R69, R70): in UNKNOWN the range of the only active sensor is settled, and a pending target that
differs starts a shift; in SETTLED a gear that is still lost is taken as lost (`now` by log 2; the sensor timer at the entry
to SETTLED by log 17). -/
def Obligations.SensorTimerResolvesGear : Prop :=
  ∀ (s : State) (e : Nat), s.sgu.sensorTimer = some e →
    ∃ t, exec .sensorTimerExpiry s = .next t ∧ t.now = max s.now e ∧
      onlyWrites { sgu := true, clu := true, evu := true } s t ∧
      (s.sgu.shift = .unknown →
        (onlyGear s = none → t.sgu = { s.sgu with sensorTimer := none } ∧ t.evu = s.evu) ∧
        ∀ g, onlyGear s = some g →
          (s.sgu.pendingTarget = none ∨ s.sgu.pendingTarget = some g →
            t.sgu = { s.sgu with
              shift := .settled, current := some g, pendingTarget := none, sensorTimer := none } ∧
            t.evu = s.evu.take ⟨.gearSettled, .spindle, g.number, s.fsw.lastSeq⟩) ∧
          (∀ r, s.sgu.pendingTarget = some r → r ≠ g →
            t.sgu.current = some g ∧ t.sgu.target = some r ∧ t.sgu.attempts = 1 ∧ t.sgu.pendingTarget = none ∧
            (t.sgu.shift = .stopping ∨ t.sgu.shift = .awaitPermit))) ∧
      (s.sgu.shift = .settled →
        (gearLostCond s = false → t.sgu = { s.sgu with sensorTimer := none } ∧ t.evu = s.evu) ∧
        (gearLostCond s = true →
          t.sgu = { s.sgu with
            shift := .unknown, current := none, purgeWait := false, target := none, pendingTarget := none
            sensorTimer := if (onlyGear s).isSome then some (t.now + 1000 * s.cfg.gear.confirmTime) else none
            fault := s.sgu.fault.or (some ⟨.gearLost, 0⟩) } ∧
          t.evu = s.evu.take (if s.sgu.fault.isSome then ⟨.secondFault, .spindle, 7, s.fsw.lastSeq⟩
            else ⟨.gearLost, .spindle, gearNumber s.sgu.current, s.fsw.lastSeq⟩))) ∧
      (s.sgu.shift ≠ .unknown → s.sgu.shift ≠ .settled →
        t.sgu = { s.sgu with sensorTimer := none } ∧ t.evu = s.evu)

/-! ## Coolant -/

/-- PRIME_TIMER_EXPIRY and LOSS_TIMER_EXPIRY (R79 to R81, R88): the circuit is FAULTED with its reason, duty 0 is staged,
COOLANT_FAULT is raised, and a pressure lost in THROUGH places the coolant-loss hold. PURGE_TIMER_EXPIRY (R83): the
purge ends and THROUGH is OFF, with the air valve no longer called for by it (`now` by log 2). PERIOD_START and
HIGH_PART_END (R89, R90): with a base in effect the staged pair takes effect and the output goes high unless the duty is
0; the end of the high part makes it low. -/
def Obligations.CoolantTimersAndPulses : Prop :=
  (∀ (s : State) (c : Circuit) (e : Nat),
    ((s.circuit c).primeTimer = some e → (s.circuit c).state = .priming →
      ∃ t, exec (.primeTimerExpiry c) s = .next t ∧ t.now = max s.now e ∧
        t.clu.circuit = s.clu.circuit.set c { s.circuit c with
          state := .faulted, primeTimer := none, lossTimer := none, fault := some .noPressure } ∧
        (c = .through → t.clu.pw0.staged = ⟨s.cfg.coolant.pw0Base, 0⟩ ∧ t.clu.pw1 = s.clu.pw1) ∧
        (c = .flood → t.clu.pw1.staged = ⟨s.cfg.coolant.pw1Base, 0⟩ ∧ t.clu.pw0 = s.clu.pw0) ∧
        t.clu.lossHold = s.clu.lossHold ∧
        t.evu = s.evu.take ⟨.coolantFault, .circuit c, 1, s.fsw.lastSeq⟩ ∧
        onlyWrites { clu := true, evu := true } s t) ∧
    ((s.circuit c).lossTimer = some e → (s.circuit c).state = .running →
      ∃ t, exec (.lossTimerExpiry c) s = .next t ∧ t.now = max s.now e ∧
        t.clu.circuit = s.clu.circuit.set c { s.circuit c with
          state := .faulted, primeTimer := none, lossTimer := none, fault := some .pressureLost } ∧
        (c = .through → t.clu.pw0.staged = ⟨s.cfg.coolant.pw0Base, 0⟩ ∧ t.clu.pw1 = s.clu.pw1) ∧
        (c = .flood → t.clu.pw1.staged = ⟨s.cfg.coolant.pw1Base, 0⟩ ∧ t.clu.pw0 = s.clu.pw0) ∧
        (let places := decide (c = .through) && s.cfg.coolant.holdEnabled && !s.clu.lossHold
         (∀ a, (t.axis a).apart = { s.axis a with
           holds := { (s.axis a).holds with
             interlock := false
             coolantLoss := (s.axis a).holds.coolantLoss || (places && s.cfg.coolant.holdMask.get a) } }) ∧
         (places = true → (∃ a, s.cfg.coolant.holdMask.get a = true) → t.clu.lossHold = true) ∧
         (places = false → t.clu.lossHold = s.clu.lossHold)) ∧
        t.evu = s.evu.take ⟨.coolantFault, .circuit c, 2, s.fsw.lastSeq⟩ ∧
        onlyWrites { axes := true, clu := true, evu := true } s t) ∧
    ((s.circuit .through).purgeTimer = some e → (s.circuit .through).state = .purging →
      ∃ t, exec .purgeTimerExpiry s = .next t ∧ t.now = max s.now e ∧
        t.clu.circuit = s.clu.circuit.set .through { s.circuit .through with state := .off, purgeTimer := none } ∧
        airValveOn t = (s.circuit .air).state.on ∧
        t.clu.pw0.staged = ⟨s.cfg.coolant.pw0Base, 0⟩ ∧ t.clu.pw1 = s.clu.pw1 ∧
        t.clu.lossHold = s.clu.lossHold ∧ onlyWrites { clu := true } s t)) ∧
  ∀ (s : State) (ch : Channel),
    (∃ t, exec (.periodStart ch) s = .next t ∧ t.now = s.now ∧
      (∀ ch', t.pw ch' =
        let p := s.pw ch'
        if ch' = ch ∧ p.eff.base ≠ 0 then { p with eff := p.staged, high := decide (p.staged.duty ≠ 0) } else p) ∧
      t.clu.circuit = s.clu.circuit ∧ t.clu.lossHold = s.clu.lossHold ∧ onlyWrites { clu := true } s t) ∧
    (∃ t, exec (.highPartEnd ch) s = .next t ∧ t.now = s.now ∧
      (∀ ch', t.pw ch' = if ch' = ch then { s.pw ch' with high := false } else s.pw ch') ∧
      t.clu.circuit = s.clu.circuit ∧ t.clu.lossHold = s.clu.lossHold ∧ onlyWrites { clu := true } s t)

/-! ## The pendant line -/

/-- DECODE_INTERVAL (R119, R121, R122): the interval runs on; every stored byte is taken, and RTS is asserted when that
brings the fill below the threshold. In RESTARTING nothing is taken. One byte moves the decoder by the table of R121; a
message that fails is discarded with its cause and counted, and a byte dropped in HUNT is not (`now` by log 2). -/
def Obligations.DecodeIntervalTakesBytes : Prop :=
  ∀ s : State, ∃ t, exec .decodeInterval s = .next t ∧ t.now = max s.now s.pdu.decodeAt ∧
    t.pdu.decodeAt = s.pdu.decodeAt + 2000 ∧
    (s.pdu.restarting = true ∨ s.pdu.rx = [] →
      t.pdu.apart = { s.pdu.apart with decodeAt := s.pdu.decodeAt + 2000 } ∧ onlyWrites { pdu := true } s t) ∧
    (s.pdu.restarting = false → t.pdu.rx = [] ∧
      t.pdu.rts = (s.pdu.rts || (decide (s.pdu.rx ≠ []) && decide (0 < s.pdu.rtsThreshold)))) ∧
    onlyWrites { axes := true, clu := true, pdu := true, evu := true } s t ∧
    ∀ b : RxByte, s.pdu.restarting = false → s.pdu.rx = [b] →
      let d := s.pdu.decoder
      let moved (st : DecState) (n : Byte) (l : List Byte) : Prop :=
        t.pdu.decoder = ⟨st, n, l⟩ ∧ t.pdu.discards = s.pdu.discards ∧ t.pdu.lastCause = s.pdu.lastCause
      let dropped (why : Discard) : Prop :=
        t.pdu.decoder = ⟨.hunt, 0, []⟩ ∧ t.pdu.discards = s.pdu.discards + 1 ∧ t.pdu.lastCause = some why
      match d.state with
      | .hunt =>
        if b.marked = false ∧ b.data = 0xA5#8 then moved .length 0 [] else moved d.state d.length d.body
      | .length =>
        if b.marked then dropped .marked
        else if b.data.toNat < 2 ∨ 32 < b.data.toNat then dropped .length
        else moved .body b.data []
      | .body =>
        if b.marked then dropped .marked
        else moved (if d.body.length + 1 = d.length.toNat then .check else .body) d.length (d.body ++ [b.data])
      | .check =>
        if b.marked then dropped .marked
        else if byteSum (d.length :: d.body ++ [b.data]) ≠ 0 then dropped .check
        else if d.body.getD 0 0 ≠ 0x53#8 then dropped .kind
        else if d.length ≠ 12 then dropped .length
        else if parseReport d.body = none then dropped .field
        else moved .hunt 0 []

/-- R121, R122, R124, R127 to R129, R133: a whole valid STATE report in the receive FIFO is taken. A repeat only restarts
the pendant timer; any other report makes the pendant LIVE with the report's values. Press edges set and clear the
latches, CYCLE START first, place and remove FEED_HOLD, stop the circuits and raise KEY; in the report that makes the
pendant LIVE the stop keys alone act. The display-ack frees a SENT mailbox if the check byte came after the out mark. -/
def Obligations.StateReportTaken : Prop :=
  ∀ (s : State) (body : List Byte) (r : Report),
    s.pdu.restarting = false → s.pdu.decoder.state = .hunt → parseReport body = some r → body.length = 12 →
    body.getD 0 0 = 0x53#8 → (s.pdu.rx.map RxByte.data) = message (12#8 :: body) →
    (∀ b ∈ s.pdu.rx, b.marked = false) →
    ∃ t, exec .decodeInterval s = .next t ∧
      t.pdu.rx = [] ∧ t.pdu.decoder = ⟨.hunt, 0, []⟩ ∧ t.pdu.discards = s.pdu.discards ∧
      t.pdu.live = true ∧ t.pdu.lastSeq = some r.seq ∧
      t.pdu.pendantTimer = some (t.now + 1000 * s.cfg.pendant.timeout) ∧
      (s.pdu.live = true → s.pdu.lastSeq = some r.seq →
        (t.pdu.enable = s.pdu.enable ∧ t.pdu.keys = s.pdu.keys ∧ t.pdu.base = s.pdu.base ∧
          t.pdu.axisSel = s.pdu.axisSel ∧ t.pdu.incSel = s.pdu.incSel ∧ t.pdu.override = s.pdu.override) ∧
        onlyWrites { pdu := true } s t) ∧
      (s.pdu.live = false ∨ s.pdu.lastSeq ≠ some r.seq →
        (t.pdu.enable = r.enable ∧ t.pdu.keys = r.keys ∧ t.pdu.base = r.count ∧
          t.pdu.axisSel = r.axisSel ∧ t.pdu.incSel = r.incSel ∧ t.pdu.override = r.override) ∧
        t.pdu.lost = (s.pdu.lost && r.enable) ∧
        (∀ a, (t.axis a).pendingInc = (s.axis a).pendingInc +
          if s.pdu.live = true ∧ (r.count - s.pdu.base).toInt.natAbs ≤ 255 ∧ r.enable = true ∧
              s.pdu.lost = false ∧ r.axisSel = some a
          then (r.count - s.pdu.base).toInt * r.incSel.units else 0) ∧
        (let edge (k : Nat) : Bool :=
          r.keys.getLsbD k && if s.pdu.live then !s.pdu.keys.getLsbD k else k == 12 || k == 14 || k == 15
         t.pdu.feedHold = (edge 12 || edge 14 || (!edge 13 && s.pdu.feedHold)) ∧
         t.pdu.spindleStop = (edge 14 || (!edge 13 && s.pdu.spindleStop)) ∧
         t.pdu.coolantStop = (edge 15 || (!edge 13 && s.pdu.coolantStop)) ∧
         (∀ a, (t.axis a).holds.feedHold = (edge 12 || edge 14 || (!edge 13 && (s.axis a).holds.feedHold))) ∧
         ((∃ k, k < 24 ∧ k ≠ 12 ∧ k ≠ 14 ∧ k ≠ 15 ∧ edge k = true) → reported .key .pendant t.evu) ∧
         (edge 15 = false → t.clu = s.clu) ∧
         (edge 15 = true → edge 13 = true ∨ s.pdu.coolantStop = false → ∀ ci, (t.circuit ci).state.on = false ∧
          ((s.circuit ci).state.on = true → reported .coolantStopped (.circuit ci) t.evu))) ∧
        (s.pdu.mailbox.state = .sent →
          let acked := r.ack = s.pdu.mailbox.seq ∧ s.pdu.mailbox.out = true ∧
            s.pdu.rx.getLast?.map RxByte.afterOut = some true
          if acked then t.pdu.mailbox.state = .free ∧ t.pdu.mailbox.text = [] ∧ t.pdu.mailbox.timer = none
          else t.pdu.mailbox = s.pdu.mailbox))

/-- PENDANT_TIMER_EXPIRY (R125, R126, R133): the pendant is ABSENT; a held enable places PENDANT_LOST on every axis and
raises PENDANT_LOST_ENABLED; a SENT mailbox is freed with DISPLAY_UNACKED. DISPLAY_TIMER_EXPIRY in SENT (R133): the
mailbox is FREE with DISPLAY_UNACKED (`now` by log 2). -/
def Obligations.PendantAndDisplayTimers : Prop :=
  ∀ (s : State) (e : Nat),
    (s.pdu.mailbox.timer = some e → s.pdu.mailbox.state = .sent →
      ∃ t, exec .displayTimerExpiry s = .next t ∧ t.now = max s.now e ∧
        t.pdu.apart = { s.pdu.apart with mailbox := { s.pdu.apart.mailbox with text := [] } } ∧
        t.pdu.mailbox.state = .free ∧ t.pdu.mailbox.timer = none ∧
        t.evu = s.evu.take ⟨.displayUnacked, .pendant, s.pdu.mailbox.seq.toNat, s.fsw.lastSeq⟩ ∧
        onlyWrites { pdu := true, evu := true } s t) ∧
    (s.pdu.pendantTimer = some e → ∃ t, exec .pendantTimerExpiry s = .next t ∧ t.now = max s.now e ∧
      (let p := s.pdu
       let sent := decide (p.mailbox.state = .sent)
       let lostDetail := match p.axisSel with
        | none => 5
        | some a => a.index
       let v := if p.enable then s.evu.take ⟨.pendantLostEnabled, .pendant, lostDetail, s.fsw.lastSeq⟩ else s.evu
       t.pdu.apart = { p.apart with
        live := false, pendantTimer := none, enable := false, lastSeq := none, lost := p.lost || p.enable
        mailbox := { p.apart.mailbox with text := if sent then [] else p.mailbox.text } } ∧
       t.pdu.mailbox.state = (if sent then .free else p.mailbox.state) ∧
       t.pdu.mailbox.timer = (if sent then none else p.mailbox.timer) ∧
       (∀ a, (t.axis a).apart = { s.axis a with
        holds := { (s.axis a).holds with
          interlock := false, pendantLost := (s.axis a).holds.pendantLost || p.enable } }) ∧
       t.evu = if sent then
        v.take ⟨.displayUnacked, .pendant, p.mailbox.seq.toNat + 256, s.fsw.lastSeq⟩ else v) ∧
      onlyWrites { axes := true, pdu := true, evu := true } s t)

/-- CHARACTER_RECEIVED (R118): a byte is stored with its marks; with the FIFO full it is lost and the overrun mark set;
in RESTARTING the receiver is stopped. A break that follows a loss keeps OVERRUN beside BREAK (model's choice, log 23).
CTS_CHANGE and TRANSMIT_BYTE_DONE (R120, R132): the level is taken, and a byte that ends leaves the FIFO; waiting
messages join its tail, and the next byte is started when CTS is asserted. The check byte of the message in the mailbox
sets the out mark. TRANSMIT_BYTE_DONE without a byte in progress takes nothing from the FIFO (model's choice, log 33).
DRAIN_TIMER_EXPIRY and the last byte of a line restart (R135): the restart ends with the new divisor and threshold; a byte
in progress completes first, and by the model's choice of log 24 the line stays RESTARTING until it has (`now` by
log 2). -/
def Obligations.LineBytesTakenAndSent : Prop :=
  (∀ (s : State) (d : Byte) (parity stop : Bool),
    ∃ t, exec (.characterReceived d parity stop) s = .next t ∧ t.now = s.now ∧
      (let p := s.pdu
       let brk := decide (d = 0) && !parity && !stop
       let b : RxByte := { data := d, parity := oddOnes d != parity, framing := !stop && !brk, brk := brk
                           overrun := p.overrun, afterOut := false }
       t.pdu.apart =
        if p.restarting then p.apart
        else if p.rx.length < 32 then
          { p.apart with
            rx := p.apart.rx ++ [b], overrun := false
            rts := p.rts && decide (p.rx.length + 1 < p.rtsThreshold) }
        else { p.apart with overrun := true }) ∧
      onlyWrites { pdu := true } s t) ∧
  (∀ s : State,
    (∀ v, ∃ t, exec (.ctsChange v) s = .next t ∧ t.now = s.now ∧
      t.pdu.apart = { s.pdu.apart with cts := v } ∧ s.pdu.tx <+: t.pdu.tx ∧
      t.pdu.sending = (s.pdu.sending || (decide (t.pdu.tx ≠ []) && v)) ∧ onlyWrites { pdu := true } s t) ∧
    ∃ t, exec .transmitByteDone s = .next t ∧ t.now = s.now ∧
      t.pdu.sending = (decide (t.pdu.tx ≠ []) && s.pdu.cts) ∧ onlyWrites { pdu := true } s t ∧
      (s.pdu.restarting = false →
        t.pdu.apart = s.pdu.apart ∧ (if s.pdu.sending then s.pdu.tx.drop 1 else s.pdu.tx) <+: t.pdu.tx ∧
        (s.pdu.mailbox.state ≠ .filled → t.pdu.mailbox.out =
          (s.pdu.mailbox.out || (s.pdu.sending && decide (s.pdu.outLeft = some 1)))))) ∧
  ∀ s : State, s.pdu.restarting = true →
    (∀ e, s.pdu.drainTimer = some e → ∃ t, exec .drainTimerExpiry s = .next t ∧ t.now = max s.now e ∧
      t.pdu.drainTimer = none ∧ onlyWrites { pdu := true } s t ∧
      if s.pdu.sending then
        t.pdu.apart = { s.pdu.apart with drainTimer := none } ∧ t.pdu.tx = s.pdu.tx.take 1
      else
        t.pdu.apart = { s.pdu.apart with
          drainTimer := none, restarting := false, rts := true
          divisor := s.cfg.pendant.divisor, rtsThreshold := s.cfg.pendant.threshold }) ∧
    (s.pdu.sending = true → ∃ t, exec .transmitByteDone s = .next t ∧
      if s.pdu.tx.length ≤ 1 then
        t.pdu.apart = { s.pdu.apart with
          drainTimer := none, restarting := false, rts := true
          divisor := s.cfg.pendant.divisor, rtsThreshold := s.cfg.pendant.threshold }
      else t.pdu.apart = s.pdu.apart ∧ t.pdu.tx = s.pdu.tx.drop 1)

/-! ## The table store -/

/-- STORE_PHASE_END (R183, R185, R187, R188): erase leads to program and program to verify; a sound erase leaves every
byte of the sector erased, a sound program puts the job's bytes where the sector is erased, and no program phase brings a
byte back to the erased value; a verify ends the job with STORE_DONE or STORE_FAILED. STORE_PHASE_TIMEOUT (R185): the job
ends in failure in its phase. The cells that come out otherwise are operands (model's choice, log 30; `now` by log 2). -/
def Obligations.StorePhases : Prop :=
  (∀ (s : State) (j : Job) (bad : List Host.Cell), s.tbm.job = some j → memoriesWf s = true →
    ∃ t, exec (.storePhaseEnd bad) s = .next t ∧ t.now = s.now ∧
      onlyWrites { tbm := true, evu := true } s t ∧ t.tbm.staging = s.tbm.staging ∧
      (∀ id, id ≠ j.table → t.entry id = s.entry id) ∧
      (j.phase = .erase →
        t.tbm.job = some { j with phase := .program, bound := some (s.now + 300000) } ∧ t.tbm.cat = s.tbm.cat ∧
        t.evu = s.evu ∧
        (bad = [] → ∀ k, k < 2048 → memRead erased t.tbm.store (j.address + k) = 0xFF#8)) ∧
      (j.phase = .program →
        t.tbm.job = some { j with phase := .verify, bound := none } ∧ t.tbm.cat = s.tbm.cat ∧ t.evu = s.evu ∧
        (∀ k, k < 2048 → memRead erased s.tbm.store (j.address + k) ≠ 0xFF#8 →
          memRead erased t.tbm.store (j.address + k) ≠ 0xFF#8) ∧
        (bad = [] → ∀ k, k < j.image.length →
          memRead erased s.tbm.store (j.address + j.offset + k) = 0xFF#8 →
          memRead erased t.tbm.store (j.address + j.offset + k) = j.image.getD k 0)) ∧
      (j.phase = .verify →
        t.tbm.job = none ∧ t.tbm.store = s.tbm.store ∧
        (let e := s.entry j.table
         let src := Source.table (tableByte j.table)
         if verified j (readBack j bad s.tbm.store) then
          t.entry j.table = (match j.kind with
            | .table => { e with running := false, stored := .valid, header := some (j.image.take 8) }
            | .protection | .freeze => { e with running := false }) ∧
          t.evu = s.evu.take ⟨.storeDone, src, (match j.kind with
            | .table => u16At j.image 6
            | .protection => 256
            | .freeze => 512), s.fsw.lastSeq⟩
         else
          t.entry j.table = (match j.kind with
            | .table => { e with running := false, stored := .invalid }
            | .protection | .freeze => { e with running := false }) ∧
          t.evu = s.evu.take ⟨.storeFailed, src, (match j.kind with
            | .table => 3
            | .protection => 259
            | .freeze => 515), s.fsw.lastSeq⟩))) ∧
  ∀ (s : State) (j : Job) (e : Nat) (done : List Nat), s.tbm.job = some j → j.bound = some e →
    ∃ t, exec (.storePhaseTimeout done) s = .next t ∧ t.now = max s.now e ∧
      onlyWrites { tbm := true, evu := true } s t ∧ t.tbm.staging = s.tbm.staging ∧ t.tbm.job = none ∧
      (∀ id, id ≠ j.table → t.entry id = s.entry id) ∧
      t.entry j.table = (match j.kind with
        | .table => { s.entry j.table with running := false, stored := .invalid }
        | .protection | .freeze => { s.entry j.table with running := false }) ∧
      t.evu = s.evu.take ⟨.storeFailed, .table (tableByte j.table),
        (match j.phase with
          | .erase => 1
          | .program => 2
          | .verify => 3) +
        (match j.kind with
          | .table => 0
          | .protection => 256
          | .freeze => 512), s.fsw.lastSeq⟩

/-! ## Requests and arithmetic -/

/-- STAGE_WRITE (R178): data that is taken reads back from its offset, every other byte of the staging buffer is kept,
and the fill length is the highest end of data written. STAGE_CHECK (R179): the staged image is checked as one of the
named table, to CHECKED, or to FILLING with the offset of the first failing field; an EMPTY buffer stays EMPTY.
STAGE_DISCARD (R180): the buffer is EMPTY. A buffer that another table owns, a frozen table, and parameters out of range
are refused with no change. -/
def Obligations.StagingRequests : Prop :=
  (∀ (params : List Byte) (s : State) (id : TableId), memoriesWf s = true →
    4 ≤ params.length → params.length ≤ 40 → tableOfByte (byteAt params 0) = some id →
    (s.entry id).freeze = false → (s.tbm.staging.state = .empty ∨ s.tbm.staging.owner = some id) →
    u16At params 1 + (params.length - 3) ≤ 2048 →
    ∃ t, stageWrite params s = (.ok, le16 (max s.tbm.staging.fill (u16At params 1 + (params.length - 3))), t) ∧
      t.tbm.staging.state = .filling ∧ t.tbm.staging.owner = some id ∧
      t.tbm.staging.fill = max s.tbm.staging.fill (u16At params 1 + (params.length - 3)) ∧
      (∀ k, k < params.length - 3 → memRead 0 t.tbm.staging.bytes (u16At params 1 + k) = params.getD (3 + k) 0) ∧
      (∀ a, a < u16At params 1 ∨ u16At params 1 + (params.length - 3) ≤ a →
        memRead 0 t.tbm.staging.bytes a = memRead 0 s.tbm.staging.bytes a) ∧
      { t with tbm := { t.tbm with staging := s.tbm.staging } } = s) ∧
  (∀ (params : List Byte) (s : State),
    let answer := stageWrite params s
    let refused (st : ReplyStatus) : Prop := answer = (st, [], s)
    (params.length < 4 ∨ 40 < params.length → refused .badParameter) ∧
    (4 ≤ params.length → params.length ≤ 40 →
      (tableOfByte (byteAt params 0) = none → refused .badParameter) ∧
      ∀ id, tableOfByte (byteAt params 0) = some id →
        ((s.entry id).freeze = true → refused .prot) ∧
        ((s.entry id).freeze = false →
          (s.tbm.staging.state ≠ .empty → s.tbm.staging.owner ≠ some id → refused .stageOtherTable) ∧
          (s.tbm.staging.state = .empty ∨ s.tbm.staging.owner = some id →
            2048 < u16At params 1 + (params.length - 3) → refused .badParameter)))) ∧
  (∀ (params : List Byte) (s : State), params.length ≠ 1 ∨ tableOfByte (byteAt params 0) = none →
    stageCheck params s = (.badParameter, [], s)) ∧
  (∀ (b : Byte) (s : State) (id : TableId), tableOfByte b.toNat = some id →
    let g := s.tbm.staging
    let image := memReadList 0 g.bytes 0 g.fill
    let left (st : StageState) : State := { s with tbm := { s.tbm with staging := { g with state := st } } }
    (g.state ≠ .empty → g.owner ≠ some id → stageCheck [b] s = (.stageOtherTable, [], s)) ∧
    (g.state = .empty ∨ g.owner = some id →
      (checkImage id image = none → stageCheck [b] s = (.ok, [], left .checked)) ∧
      ∀ n, checkImage id image = some n → stageCheck [b] s =
        (.checkFailed, le16 n, left (if g.state = .empty then .empty else .filling))) ∧
    (g.fill = 0 → checkImage id image = some 0)) ∧
  ∀ (params : List Byte) (s : State),
    (params ≠ [] → stageDiscard params s = (.badParameter, [], s)) ∧
    (params = [] → ∃ t, stageDiscard params s = (.ok, [], t) ∧ t.tbm.staging.state = .empty ∧
      t.tbm.staging.owner = none ∧ t.tbm.staging.fill = 0 ∧ (∀ a, memRead 0 t.tbm.staging.bytes a = 0) ∧
      { t with tbm := { t.tbm with staging := s.tbm.staging } } = s)

/-- ACTIVATE (R181, R182): the checks in order, each refusal without a change; in a state that allows the change
(`mayTake`) the image is taken: it is the active copy of its table, VALID and in force, the buffer is EMPTY and every other
catalogue entry stands; in any other state the answer is NOT_NOW. Model's choices: the clamp condition of R115 is read as in
log 58, every axis table takes the clamp state from the confirm inputs (log 16), and the positive one of two active hard
limits makes the fault record (`limitFault`, log 51). -/
def Obligations.ActivateTaken : Prop :=
  ∀ (b : Byte) (s : State) (id : TableId), tableOfByte b.toNat = some id →
    let e := s.entry id
    let g := s.tbm.staging
    let image := memReadList 0 g.bytes 0 g.fill
    let owned := g.state = .checked ∧ g.owner = some id
    let allowed := mayTake id (installTable id image s.cfg) s
    (e.freeze = true → activate [b] s = (.prot, [], s)) ∧
    (e.freeze = false → e.running = true → activate [b] s = (.busy, [], s)) ∧
    (e.freeze = false → e.running = false → ¬ owned → activate [b] s = (.notChecked, [], s)) ∧
    (e.freeze = false → e.running = false → owned → ¬ allowed → activate [b] s = (.notNow, [], s)) ∧
    (e.freeze = false → e.running = false → owned → allowed →
      ∃ t, activate [b] s = (.ok, [], t) ∧ t.cfg = installTable id image s.cfg ∧
        t.entry id = { e with status := .valid, image := image } ∧
        (∀ id', id' ≠ id → t.entry id' = s.entry id') ∧
        t.tbm.staging.state = .empty ∧ t.tbm.staging.fill = 0 ∧ t.tbm.job = s.tbm.job ∧
        t.tbm.store = s.tbm.store ∧ t.fsw = s.fsw ∧ t.svr = s.svr ∧ t.perms = evalPerms t ∧
        match id with
        | .axisParams a =>
            (t.axis a).f = (s.axis a).f ∧ (t.axis a).comp.natAbs ≤ (t.cfg.axis.get a).ceiling ∧
            ((s.axis a).enableFwd = true → (t.axis a).comp = (s.axis a).comp) ∧
            (t.axis a).clamp = clampShown t a ∧ (t.axis a).fault = (s.axis a).fault.or (limitFault t a) ∧
            otherAxesKept a s t ∧ onlyWrites { axes := true, tbm := true, cfg := true, evu := true } s t
        | .pitch _ | .crossYW | .crossZX | .interlock | .link | .identity =>
            onlyWrites { tbm := true, cfg := true } s t
        | .gear =>
            t.sgu = { s.sgu with
              target := none, pendingTarget := none, sensorTimer := none, attempts := 0, current := onlyGear t
              shift := if (onlyGear t).isSome then .settled else .unknown } ∧
            t.evu = (if onlyGear t = none ∨ onlyGear t = s.sgu.current then s.evu
              else s.evu.take ⟨.gearSettled, .spindle, gearNumber (onlyGear t), s.fsw.lastSeq⟩) ∧
            onlyWrites { sgu := true, tbm := true, cfg := true, evu := true } s t
        | .coolant => t.clu.circuit = s.clu.circuit ∧
            t.clu.pw0.staged = ⟨t.cfg.coolant.pw0Base, 0⟩ ∧ t.clu.pw1.staged = ⟨t.cfg.coolant.pw1Base, 0⟩ ∧
            onlyWrites { clu := true, tbm := true, cfg := true } s t
        | .inputs => ∀ n : Fin 48, t.iou.inputs[n] =
            ⟨(s.iou.inputs[n]).raw, presented (inputCfg t n) (s.iou.inputs[n]).raw, none⟩
        | .outputs => t.iou.inputs = s.iou.inputs ∧
            (∀ n : Fin 32, (t.cfg.outputs[n]).owner = .general →
              t.iou.outputs[n] =
                if (s.cfg.outputs[n]).owner = .general ∧ (s.cfg.outputs[n]).pulse = (t.cfg.outputs[n]).pulse
                then s.iou.outputs[n] else ⟨false, none⟩)
        | .pendant => t.pdu.live = false ∧ t.pdu.rx = [] ∧
            (s.pdu.tx ≠ [] → t.pdu.restarting = true ∧ t.pdu.tx = s.pdu.tx ∧ t.pdu.rts = false ∧
              t.pdu.drainTimer = some (s.now + 1000 * s.cfg.pendant.timeout)) ∧
            (s.pdu.tx = [] → t.pdu.restarting = false ∧ t.pdu.divisor = t.cfg.pendant.divisor ∧
              t.pdu.rtsThreshold = t.cfg.pendant.threshold) ∧
            onlyWrites { pdu := true, tbm := true, cfg := true, evu := true } s t)

/-- STORE, PROTECT and FREEZE (R184, R187, R188) of a table of the catalogue: the checks in order, each refusal without a
change, and the job that starts with what its acceptance sets in the catalogue; nothing else changes. -/
def Obligations.StoreProtectFreezeStartJobs : Prop :=
  ∀ (b : Byte) (s : State) (id : TableId), tableOfByte b.toNat = some id →
    let e := s.entry id
    let only (t : State) : Prop := (∀ id', id' ≠ id → t.entry id' = s.entry id') ∧
      { t with tbm := { t.tbm with cat := s.tbm.cat, job := s.tbm.job, staging := s.tbm.staging } } = s
    (let answer := storeTable [b] s
     (keySetup s = false ∨ e.protect = true ∨ e.freeze = true → answer = (.prot, [], s)) ∧
     (keySetup s = true → e.protect = false → e.freeze = false →
      (e.status ≠ .valid → answer = (.tableAbsent, [], s)) ∧
      (e.status = .valid → s.tbm.job ≠ none → answer = (.busy, [], s)) ∧
      (e.status = .valid → s.tbm.job = none → ∃ t, answer = (.accepted, [], t) ∧ only t ∧
        t.tbm.staging = s.tbm.staging ∧ t.tbm.job = some ⟨.table, id, .erase, e.image, some (s.now + 200000)⟩ ∧
        t.entry id = { e with running := true, stored := .writing, header := none }))) ∧
    (∀ on : Byte, on.toNat ≤ 1 →
     let answer := protectTable [b, on] s
     (keySetup s = false ∨ e.freeze = true → answer = (.prot, [], s)) ∧
     (keySetup s = true → e.freeze = false →
      (s.tbm.job ≠ none → answer = (.busy, [], s)) ∧
      (s.tbm.job = none → e.protect = decide (on = 1) → answer = (.ok, [], s)) ∧
      (s.tbm.job = none → e.protect ≠ decide (on = 1) → ∃ t, answer = (.accepted, [], t) ∧ only t ∧
        t.tbm.staging = s.tbm.staging ∧
        (∃ record, t.tbm.job = some ⟨.protection, id, .erase, record, some (s.now + 200000)⟩ ∧
          record.length = 22 ∧ (crc16 (record.take 20)).toNat = u16At record 20 ∧
          ∀ id', byteAt record (tableIndex id') = if (t.entry id').protect then 1 else 0) ∧
        t.entry id = { e with running := true, protect := decide (on = 1) }))) ∧
    (let answer := freezeTable [b] s
     (keySetup s = false ∨ e.freeze = true → answer = (.prot, [], s)) ∧
     (keySetup s = true → e.freeze = false →
      (s.tbm.job ≠ none → answer = (.busy, [], s)) ∧
      (s.tbm.job = none → e.stored ≠ .valid → answer = (.tableAbsent, [], s)) ∧
      (s.tbm.job = none → e.stored = .valid → e.status ≠ .valid ∨ e.header ≠ some (e.image.take 8) →
        answer = (.notNow, [], s)) ∧
      (s.tbm.job = none → e.stored = .valid → e.status = .valid → e.header = some (e.image.take 8) →
        ∃ t, answer = (.accepted, [], t) ∧ only t ∧
          t.tbm.staging = (if s.tbm.staging.owner = some id then .reset else s.tbm.staging) ∧
          t.tbm.job = some ⟨.freeze, id, .program, [0], some (s.now + 300000)⟩ ∧
          t.entry id = { e with running := true, freeze := true })))

/-- DESCRIBE (R167): the selected parts in order, each of its size, at most 40 bytes, with no change. READ_TABLE (R168):
bytes of the active image of a VALID table. POST_DISPLAY (R131): compose text, or a message in the mailbox. RESTART (R172):
its checks in order, and the warm reset asked for with the frame's echo. Model's choice (log 65): the LED image in DESCRIBE
is that of the state as the request is taken. -/
def Obligations.BridgeRequestsAnswered : Prop :=
  (∀ s : State, describeParts.map Prod.fst = [8, 22, 9, 16, 15, 30] ∧
    (∀ p ∈ describeParts, (p.2 s).length = p.1) ∧
    ∀ params, ∃ st result, describe params s = (st, result, s) ∧
      (st = .ok ↔ ∃ b : Byte, params = [b] ∧ 0 < b.toNat ∧ b.toNat < 64 ∧
        ((selectedParts b.toNat).map Prod.fst).sum ≤ 40) ∧
      (st = .ok → result = (selectedParts (byteAt params 0)).flatMap fun p => p.2 s) ∧
      (st ≠ .ok → st = .badParameter ∧ result = [])) ∧
  (∀ (params : List Byte) (s : State) (id : TableId), params.length = 4 → tableOfByte (byteAt params 0) = some id →
    let offset := u16At params 1
    let n := byteAt params 3
    let e := s.entry id
    (n = 0 ∨ 32 < n → readTable params s = (.badParameter, [], s)) ∧
    (0 < n → n ≤ 32 →
      (e.status ≠ .valid → readTable params s = (.tableAbsent, [], s)) ∧
      (e.status = .valid → e.image.length < offset + n → readTable params s = (.badParameter, [], s)) ∧
      (e.status = .valid → offset + n ≤ e.image.length → ∃ result, readTable params s = (.ok, result, s) ∧
        result.length = n ∧ ∀ k, k < n → result.getD k 0 = e.image.getD (offset + k) 0))) ∧
  (∀ (more : Byte) (chars : List Byte) (s : State),
    let m := s.pdu.mailbox
    let answer := postDisplay (more :: chars) s
    let formed := chars ≠ [] ∧ chars.length ≤ 39 ∧ more.toNat ≤ 1 ∧
      ∀ ch ∈ chars, 0x20 ≤ ch.toNat ∧ ch.toNat ≤ 0x7E
    (¬ formed → answer = (.badParameter, [], s)) ∧
    (formed → m.state ≠ .free → answer = (.mailboxFull, [], s)) ∧
    (formed → m.state = .free → (if more = 1 then 47 else 48) < m.compose.length + chars.length →
      answer = (.badParameter, [], s)) ∧
    (formed → m.state = .free → more = 1 → m.compose.length + chars.length ≤ 47 →
      answer = (.ok, [BitVec.ofNat 8 (m.compose.length + chars.length)],
        { s with pdu := { s.pdu with mailbox := { m with compose := m.compose ++ chars } } })) ∧
    (formed → m.state = .free → more = 0 → m.compose.length + chars.length ≤ 48 →
      answer = (.ok, [m.counter + 1], { s with pdu := { s.pdu with mailbox := { m with
        state := .filled, text := m.compose ++ chars, seq := m.counter + 1, compose := [],
        counter := m.counter + 1 } } }))) ∧
  ∀ (q : Byte) (params : List Byte) (s : State),
    let rests := (∀ a, (s.axis a).follower = .disabled) ∧ s.sgu.enableFwd = false ∧ s.sgu.stopping = false ∧
      s.fsw.periodTimer = none
    (params ≠ [] → restart q params s = (.badParameter, [], s)) ∧
    (params = [] → s.fsw.state ≠ .standby ∨ ¬ rests → restart q params s = (.notNow, [], s)) ∧
    (params = [] → s.fsw.state = .standby → rests → s.tbm.job ≠ none → restart q params s = (.busy, [], s)) ∧
    (params = [] → s.fsw.state = .standby → rests → s.tbm.job = none →
      restart q params s = (.ok, [], { s with fsw := { s.fsw with restart := .requested q } }))

/-- R160, R161, R164, R165: the service slot of a frame accepted in STANDBY or RUNNING, with no window open before. A
slot shorter than a request, a malformed one and an unknown station are reported or answered; a request to a drive opens its
pass-through record, or is answered BUSY; a broadcast is carried to every drive without a reply; a request to station 15
is answered in the echo of its frame, by the function of its code (R165, R203). The record of a broadcast discarded because
a segment waits stands unless the notice list is full and the same broadcast clears the overflow flag. In LINK_LOST the
request is taken in the same way, with the echo at once (R153). -/
def Obligations.ServiceSlotRouted : Prop :=
  (∀ (data : List Byte) (c : CommandFrame) (s : State), acceptedInCycle data c s → s.fsw.window = none →
    c.service ≠ [] →
    ∃ t, exec (.commandFrame data) s = .next t ∧
      let r := requestFields c.service
      let fits := r.paramLen ≤ 40 ∧ 4 + r.paramLen = c.service.length
      let answered (st : ReplyStatus) : Prop := t.svr.reply = some ⟨c.seq, r.tag, r.station, st.code, []⟩
      t.svr.queue = s.svr.queue ∧
      (c.service.length < 4 → t.svr.reply = s.svr.reply ∧ reported .serviceDiscarded .link t.evu) ∧
      (4 ≤ c.service.length → ¬ fits → answered .badParameter) ∧
      (4 ≤ c.service.length → fits →
        (r.station ≠ 0 → r.station ≠ 15 → Station.ofNumber r.station.toNat = none → answered .noStation) ∧
        (∀ st, Station.ofNumber r.station.toNat = some st →
          if stationBusy s.svr st = true ∨ s.svr.broadcast ≠ none then answered .busy
          else t.svr.reply = s.svr.reply ∧ t.svr.pass.get st =
            ⟨.outstanding, r.tag, s.cfg.link.passTimeout, some (t.now + 1000 * s.cfg.link.passTimeout), []⟩) ∧
        (r.station = 0 → t.svr.reply = s.svr.reply ∧
          (segmentWaits s.svr = true →
            let clearsEvents := r.code = 0xCA#8 ∧ r.params = [5#8]
            (¬ clearsEvents → reported .serviceDiscarded .link t.evu) ∧
            (clearsEvents → reported .serviceDiscarded .link t.evu ∨ 24 ≤ t.evu.notices.length)) ∧
          (segmentWaits s.svr = false →
            ∀ st, segmentFor (svrAtFrame (.commandFrame data) s) st = r.segment)) ∧
        (r.station = 15 → ∃ st result, t.svr.reply = some ⟨c.seq, r.tag, 15#8, st, result⟩ ∧
          (r.code.toNat < 0xC0 ∨ 0xCB < r.code.toNat → answered .unknownRequest)))) ∧
  (∀ (q : Byte) (slot : List Byte) (s : State),
    let r := requestFields slot
    let p := r.params
    let gives (a : Answer) : Prop := takeSlot q slot s =
      { a.2.2 with svr := { a.2.2.svr with reply := some ⟨q, r.tag, r.station, a.1.code, a.2.1⟩ } }
    4 ≤ slot.length → r.paramLen ≤ 40 → 4 + r.paramLen = slot.length → r.station = 15 →
    (r.code = 0xC0#8 → gives (describe p s)) ∧ (r.code = 0xC1#8 → gives (readTable p s)) ∧
    (r.code = 0xC2#8 → gives (stageWrite p s)) ∧ (r.code = 0xC3#8 → gives (stageCheck p s)) ∧
    (r.code = 0xC4#8 → gives (stageDiscard p s)) ∧ (r.code = 0xC5#8 → gives (activate p s)) ∧
    (r.code = 0xC6#8 → gives (storeTable p s)) ∧ (r.code = 0xC7#8 → gives (protectTable p s)) ∧
    (r.code = 0xC8#8 → gives (freezeTable p s)) ∧ (r.code = 0xC9#8 → gives (postDisplay p s)) ∧
    (r.code = 0xCA#8 → gives (clearFaults p s)) ∧ (r.code = 0xCB#8 → gives (restart q p s)) ∧
    (r.code.toNat < 0xC0 ∨ 0xCB < r.code.toNat → gives (.unknownRequest, [], s))) ∧
  ∀ (data : List Byte) (c : CommandFrame) (s : State),
    s.fsw.state = .linkLost → s.fsw.restart = .none → testCommand data = .passes c → s.fsw.lastSeq ≠ some c.seq →
    let u := takeSlot c.seq c.service (acceptSeq c.seq s)
    ∃ t, exec (.commandFrame data) s = .next t ∧
      t.svr = u.svr.afterChoice c.seq ∧ t.evu = u.evu.afterChoice ∧ t.tbm = u.tbm ∧ t.cfg = u.cfg ∧
      onlyWrites { fsw := true, svr := true, evu := true } u t

/-- R198: CLEAR_FAULTS with scope EVENTS clears both overflow flags and leaves the lists; no other scope acts on the
EVU. -/
def Obligations.ClearFaultsOnEvents : Prop :=
  ∀ (params : List Byte) (s : State),
    (params = [5#8] → clearFaults params s =
        (.ok, [], ileEval { s with evu := { s.evu with urgentOverflow := false, noticeOverflow := false } })) ∧
    (params = [5#8] → (clearFaults params s).2.2.evu.urgent = s.evu.urgent ∧
      (clearFaults params s).2.2.evu.notices = s.evu.notices ∧
      (clearFaults params s).2.2.evu.urgentOverflow = false ∧ (clearFaults params s).2.2.evu.noticeOverflow = false) ∧
    (params ≠ [5#8] → (clearFaults params s).2.2.evu = s.evu)

/-- CLEAR_FAULTS (R170, R171): a scope, length or axis index out of range is refused with no change; any other request is
answered OK and acts on the records of its scope alone: axes by R46, R47 and R126, the silent marks of the stations (R151),
the gear record by R57 and R68, the circuits and the coolant-loss hold by R81 and R88, the lost mark by R126. The ILE
evaluates in that event. -/
def Obligations.ClearFaultsByScope : Prop :=
  (∀ (params : List Byte) (s : State),
    let formed := (∃ scope : Byte, params = [scope] ∧ scope ≠ 1 ∧ scope.toNat ≤ 5) ∨
      ∃ i : Byte, params = [1, i] ∧ i.toNat < 5
    (¬ formed → clearFaults params s = (.badParameter, [], s)) ∧
    (formed → ∃ t, clearFaults params s = (.ok, [], t) ∧ t.perms = evalPerms t)) ∧
  (∀ (i : Byte) (a : Axis) (s : State), Axis.ofIndex i.toNat = some a →
    let t := (clearFaults [1, i] s).2.2
    let heard := { s.fsw.stations.get (.axis a) with silent := false }
    (t.axis a).apart = (clearedAxis s a).apart ∧ otherAxesKept a s t ∧
      t.fsw = { s.fsw with stations := s.fsw.stations.set (.axis a) heard } ∧
      onlyWrites { fsw := true, axes := true } s t) ∧
  ∀ s : State,
    (let t := (clearFaults [2] s).2.2
     let heard := { s.fsw.stations.get .spindle with silent := false }
     t.sgu = clearedSpindle s ∧
      t.fsw = { s.fsw with stations := s.fsw.stations.set .spindle heard } ∧
      onlyWrites { fsw := true, sgu := true } s t) ∧
    (let t := (clearFaults [3] s).2.2
     coolantCleared s t ∧
      (∀ a, (t.axis a).apart = { (s.axis a).apart with holds := { (s.axis a).apart.holds with coolantLoss := false } }) ∧
      onlyWrites { axes := true, clu := true } s t) ∧
    (let t := (clearFaults [4] s).2.2
     t.pdu = { s.pdu with lost := false } ∧
      (∀ a, (t.axis a).apart = { (s.axis a).apart with holds := { (s.axis a).apart.holds with pendantLost := false } }) ∧
      onlyWrites { axes := true, pdu := true } s t) ∧
    (let t := (clearFaults [0] s).2.2
     t.sgu = clearedSpindle s ∧ coolantCleared s t ∧ t.pdu = { s.pdu with lost := false } ∧
      (∀ a, (t.axis a).apart = { (clearedAxis s a).apart with
        holds := { (clearedAxis s a).apart.holds with coolantLoss := false, pendantLost := false } }) ∧
      (∀ st, t.fsw.stations.get st = { s.fsw.stations.get st with silent := false }) ∧
      { t.fsw with stations := s.fsw.stations } = s.fsw ∧
      onlyWrites { fsw := true, axes := true, sgu := true, clu := true, pdu := true } s t)

/-- R194: a raised record is taken by the three tests in order: a waiting record with the same code and source, room,
a full list. -/
def Obligations.RaisedRecordTakenByTests : Prop :=
  ∀ (v : Evu) (e : EventRec),
    let list := if e.code.urgent then v.urgent else v.notices
    let cap := if e.code.urgent then 8 else 24
    let waits := list.any fun g => decide (g.code = e.code ∧ g.source = e.source)
    let joined := if waits = false ∧ list.length < cap then list ++ [e] else list
    let full := waits = false ∧ ¬ list.length < cap
    (v.take e).urgent = (if e.code.urgent then joined else v.urgent) ∧
    (v.take e).notices = (if e.code.urgent then v.notices else joined) ∧
    ((v.take e).urgentOverflow = true ↔ v.urgentOverflow = true ∨ (e.code.urgent = true ∧ full)) ∧
    ((v.take e).noticeOverflow = true ↔ v.noticeOverflow = true ∨ (e.code.urgent = false ∧ full))

/-- R30: the braking bound is k times a for the largest k whose steps k × a, … , a fit in the distance, and the distance
itself when k is 0. -/
def Obligations.BrakingBoundIsLargest : Prop :=
  ∀ a x : Nat, 0 < a → ∃ k,
    ((List.range (k + 1)).map (· * a)).sum ≤ x ∧ a * (k * (k + 1)) ≤ 2 * x ∧
    (∀ k', a * (k' * (k' + 1)) ≤ 2 * x → k' ≤ k) ∧
    brakeBound a x = if k = 0 then x else k * a

end Statements
end

