-- ==== Sys2Proof/Laws/Bytes.lean ====
section
/-! SUPPORT. The fields and the checks of frames: their lengths, and the CRC as one fold. -/

namespace Sys2Proof.Machine

@[simp] theorem length_le16 (n : Nat) : (le16 n).length = 2 := rfl

@[simp] theorem length_le32 (n : Nat) : (le32 n).length = 4 := rfl

@[simp] theorem length_sle32 (v : Int) : (sle32 v).length = 4 := rfl

theorem crcFrom_eq_foldl (l : List Byte) (c : BitVec 16) : crcFrom c l = l.foldl crcByte c := by
  induction l generalizing c with
  | nil => rfl
  | cons b l ih =>
    simp only [crcFrom, List.foldl_cons, ih]
    split <;> simp_all

/-- The CRC is one fold over the bytes from the register 0xFFFF (R202). -/
theorem crc16_eq_foldl (l : List Byte) : crc16 l = l.foldl crcByte 0xFFFF#16 := crcFrom_eq_foldl l _

/-- A signed value limited to a range lies in it. -/
theorem clampInt_mem (v : Int) {lo hi : Int} (h : lo ≤ hi) : lo ≤ clampInt v lo hi ∧ clampInt v lo hi ≤ hi := by
  unfold clampInt
  split
  · omega
  · split <;> omega

theorem clampInt_of_mem {v lo hi : Int} (hlo : lo ≤ v) (hhi : v ≤ hi) : clampInt v lo hi = v := by
  unfold clampInt
  split
  · omega
  · split <;> omega

end Sys2Proof.Machine
end

