-- ==== Sys2Proof/Laws/EndOfEvent.lean ====
section
/-! SUPPORT. The end of every event (`finish`) and the steps it is made of: what each leaves, and what holds after it. -/

namespace Sys2Proof.Machine

/-! ## The evaluation of the permissions -/

@[simp] theorem ileEval_pending (s : State) : (ileEval s).pending = s.pending := rfl
@[simp] theorem ileEval_now (s : State) : (ileEval s).now = s.now := rfl
@[simp] theorem ileEval_free (s : State) : (ileEval s).free = s.free := rfl
@[simp] theorem ileEval_fsw (s : State) : (ileEval s).fsw = s.fsw := rfl
@[simp] theorem ileEval_pubX (s : State) : (ileEval s).pubX = s.pubX := rfl
@[simp] theorem ileEval_pubW (s : State) : (ileEval s).pubW = s.pubW := rfl
@[simp] theorem ileEval_sgu (s : State) : (ileEval s).sgu = s.sgu := rfl
@[simp] theorem ileEval_clu (s : State) : (ileEval s).clu = s.clu := rfl
@[simp] theorem ileEval_iou (s : State) : (ileEval s).iou = s.iou := rfl
@[simp] theorem ileEval_pdu (s : State) : (ileEval s).pdu = s.pdu := rfl
@[simp] theorem ileEval_svr (s : State) : (ileEval s).svr = s.svr := rfl
@[simp] theorem ileEval_tbm (s : State) : (ileEval s).tbm = s.tbm := rfl
@[simp] theorem ileEval_cfg (s : State) : (ileEval s).cfg = s.cfg := rfl
@[simp] theorem ileEval_evu (s : State) : (ileEval s).evu = s.evu := rfl
@[simp] theorem ileEval_perms (s : State) : (ileEval s).perms = evalPerms s := rfl

/-- An evaluation changes an axis record in INTERLOCK alone. -/
theorem ileEval_axis (s : State) (a : Axis) :
    (ileEval s).axis a = { s.axis a with holds := { (s.axis a).holds with
      interlock := interlockAfter (s.perms.move.get a) ((evalPerms s).move.get a) (s.axis a).holds.interlock } } := by
  cases a <;> rfl

@[simp] theorem ileEval_axis_apart (s : State) (a : Axis) : ((ileEval s).axis a).apart = (s.axis a).apart := by
  cases a <;> rfl

/-! ## Owned outputs -/

@[simp] theorem syncOwned_pending (s : State) : (syncOwned s).pending = s.pending := rfl
@[simp] theorem syncOwned_now (s : State) : (syncOwned s).now = s.now := rfl
@[simp] theorem syncOwned_free (s : State) : (syncOwned s).free = s.free := rfl
@[simp] theorem syncOwned_fsw (s : State) : (syncOwned s).fsw = s.fsw := rfl
@[simp] theorem syncOwned_axes (s : State) : (syncOwned s).axes = s.axes := rfl
@[simp] theorem syncOwned_pubX (s : State) : (syncOwned s).pubX = s.pubX := rfl
@[simp] theorem syncOwned_pubW (s : State) : (syncOwned s).pubW = s.pubW := rfl
@[simp] theorem syncOwned_sgu (s : State) : (syncOwned s).sgu = s.sgu := rfl
@[simp] theorem syncOwned_clu (s : State) : (syncOwned s).clu = s.clu := rfl
@[simp] theorem syncOwned_perms (s : State) : (syncOwned s).perms = s.perms := rfl
@[simp] theorem syncOwned_pdu (s : State) : (syncOwned s).pdu = s.pdu := rfl
@[simp] theorem syncOwned_svr (s : State) : (syncOwned s).svr = s.svr := rfl
@[simp] theorem syncOwned_tbm (s : State) : (syncOwned s).tbm = s.tbm := rfl
@[simp] theorem syncOwned_cfg (s : State) : (syncOwned s).cfg = s.cfg := rfl
@[simp] theorem syncOwned_evu (s : State) : (syncOwned s).evu = s.evu := rfl
@[simp] theorem syncOwned_inputs (s : State) : (syncOwned s).iou.inputs = s.iou.inputs := rfl

theorem syncOwned_output (s : State) (n : Fin 32) :
    (syncOwned s).iou.outputs[n] =
      if (s.cfg.outputs[n]).owner = .general then s.iou.outputs[n]
      else { s.iou.outputs[n] with on := calledLevel s n (s.cfg.outputs[n]).owner } := by
  simp only [syncOwned, Fin.getElem_fin, Vector.getElem_mapFinIdx]

/-! ## The LED image and the pendant line -/

@[simp] theorem formLeds_pending (s : State) : (formLeds s).pending = s.pending := by unfold formLeds; simp only []; split <;> rfl
@[simp] theorem formLeds_now (s : State) : (formLeds s).now = s.now := by unfold formLeds; simp only []; split <;> rfl
@[simp] theorem formLeds_free (s : State) : (formLeds s).free = s.free := by unfold formLeds; simp only []; split <;> rfl
@[simp] theorem formLeds_fsw (s : State) : (formLeds s).fsw = s.fsw := by unfold formLeds; simp only []; split <;> rfl
@[simp] theorem formLeds_axes (s : State) : (formLeds s).axes = s.axes := by unfold formLeds; simp only []; split <;> rfl
@[simp] theorem formLeds_pubX (s : State) : (formLeds s).pubX = s.pubX := by unfold formLeds; simp only []; split <;> rfl
@[simp] theorem formLeds_pubW (s : State) : (formLeds s).pubW = s.pubW := by unfold formLeds; simp only []; split <;> rfl
@[simp] theorem formLeds_sgu (s : State) : (formLeds s).sgu = s.sgu := by unfold formLeds; simp only []; split <;> rfl
@[simp] theorem formLeds_clu (s : State) : (formLeds s).clu = s.clu := by unfold formLeds; simp only []; split <;> rfl
@[simp] theorem formLeds_iou (s : State) : (formLeds s).iou = s.iou := by unfold formLeds; simp only []; split <;> rfl
@[simp] theorem formLeds_perms (s : State) : (formLeds s).perms = s.perms := by unfold formLeds; simp only []; split <;> rfl
@[simp] theorem formLeds_svr (s : State) : (formLeds s).svr = s.svr := by unfold formLeds; simp only []; split <;> rfl
@[simp] theorem formLeds_tbm (s : State) : (formLeds s).tbm = s.tbm := by unfold formLeds; simp only []; split <;> rfl
@[simp] theorem formLeds_cfg (s : State) : (formLeds s).cfg = s.cfg := by unfold formLeds; simp only []; split <;> rfl
@[simp] theorem formLeds_evu (s : State) : (formLeds s).evu = s.evu := by unfold formLeds; simp only []; split <;> rfl

@[simp] theorem placeLeds_pending (s : State) : (placeLeds s).pending = s.pending := by unfold placeLeds; simp only []; split <;> rfl
@[simp] theorem placeLeds_now (s : State) : (placeLeds s).now = s.now := by unfold placeLeds; simp only []; split <;> rfl
@[simp] theorem placeLeds_free (s : State) : (placeLeds s).free = s.free := by unfold placeLeds; simp only []; split <;> rfl
@[simp] theorem placeLeds_fsw (s : State) : (placeLeds s).fsw = s.fsw := by unfold placeLeds; simp only []; split <;> rfl
@[simp] theorem placeLeds_axes (s : State) : (placeLeds s).axes = s.axes := by unfold placeLeds; simp only []; split <;> rfl
@[simp] theorem placeLeds_pubX (s : State) : (placeLeds s).pubX = s.pubX := by unfold placeLeds; simp only []; split <;> rfl
@[simp] theorem placeLeds_pubW (s : State) : (placeLeds s).pubW = s.pubW := by unfold placeLeds; simp only []; split <;> rfl
@[simp] theorem placeLeds_sgu (s : State) : (placeLeds s).sgu = s.sgu := by unfold placeLeds; simp only []; split <;> rfl
@[simp] theorem placeLeds_clu (s : State) : (placeLeds s).clu = s.clu := by unfold placeLeds; simp only []; split <;> rfl
@[simp] theorem placeLeds_iou (s : State) : (placeLeds s).iou = s.iou := by unfold placeLeds; simp only []; split <;> rfl
@[simp] theorem placeLeds_perms (s : State) : (placeLeds s).perms = s.perms := by unfold placeLeds; simp only []; split <;> rfl
@[simp] theorem placeLeds_svr (s : State) : (placeLeds s).svr = s.svr := by unfold placeLeds; simp only []; split <;> rfl
@[simp] theorem placeLeds_tbm (s : State) : (placeLeds s).tbm = s.tbm := by unfold placeLeds; simp only []; split <;> rfl
@[simp] theorem placeLeds_cfg (s : State) : (placeLeds s).cfg = s.cfg := by unfold placeLeds; simp only []; split <;> rfl
@[simp] theorem placeLeds_evu (s : State) : (placeLeds s).evu = s.evu := by unfold placeLeds; simp only []; split <;> rfl

@[simp] theorem placeDisplay_pending (s : State) : (placeDisplay s).pending = s.pending := by unfold placeDisplay; simp only []; split <;> rfl
@[simp] theorem placeDisplay_now (s : State) : (placeDisplay s).now = s.now := by unfold placeDisplay; simp only []; split <;> rfl
@[simp] theorem placeDisplay_free (s : State) : (placeDisplay s).free = s.free := by unfold placeDisplay; simp only []; split <;> rfl
@[simp] theorem placeDisplay_fsw (s : State) : (placeDisplay s).fsw = s.fsw := by unfold placeDisplay; simp only []; split <;> rfl
@[simp] theorem placeDisplay_axes (s : State) : (placeDisplay s).axes = s.axes := by unfold placeDisplay; simp only []; split <;> rfl
@[simp] theorem placeDisplay_pubX (s : State) : (placeDisplay s).pubX = s.pubX := by unfold placeDisplay; simp only []; split <;> rfl
@[simp] theorem placeDisplay_pubW (s : State) : (placeDisplay s).pubW = s.pubW := by unfold placeDisplay; simp only []; split <;> rfl
@[simp] theorem placeDisplay_sgu (s : State) : (placeDisplay s).sgu = s.sgu := by unfold placeDisplay; simp only []; split <;> rfl
@[simp] theorem placeDisplay_clu (s : State) : (placeDisplay s).clu = s.clu := by unfold placeDisplay; simp only []; split <;> rfl
@[simp] theorem placeDisplay_iou (s : State) : (placeDisplay s).iou = s.iou := by unfold placeDisplay; simp only []; split <;> rfl
@[simp] theorem placeDisplay_perms (s : State) : (placeDisplay s).perms = s.perms := by unfold placeDisplay; simp only []; split <;> rfl
@[simp] theorem placeDisplay_svr (s : State) : (placeDisplay s).svr = s.svr := by unfold placeDisplay; simp only []; split <;> rfl
@[simp] theorem placeDisplay_tbm (s : State) : (placeDisplay s).tbm = s.tbm := by unfold placeDisplay; simp only []; split <;> rfl
@[simp] theorem placeDisplay_cfg (s : State) : (placeDisplay s).cfg = s.cfg := by unfold placeDisplay; simp only []; split <;> rfl
@[simp] theorem placeDisplay_evu (s : State) : (placeDisplay s).evu = s.evu := by unfold placeDisplay; simp only []; split <;> rfl

@[simp] theorem startByte_pending (s : State) : (startByte s).pending = s.pending := by unfold startByte; simp only []; split <;> rfl
@[simp] theorem startByte_now (s : State) : (startByte s).now = s.now := by unfold startByte; simp only []; split <;> rfl
@[simp] theorem startByte_free (s : State) : (startByte s).free = s.free := by unfold startByte; simp only []; split <;> rfl
@[simp] theorem startByte_fsw (s : State) : (startByte s).fsw = s.fsw := by unfold startByte; simp only []; split <;> rfl
@[simp] theorem startByte_axes (s : State) : (startByte s).axes = s.axes := by unfold startByte; simp only []; split <;> rfl
@[simp] theorem startByte_pubX (s : State) : (startByte s).pubX = s.pubX := by unfold startByte; simp only []; split <;> rfl
@[simp] theorem startByte_pubW (s : State) : (startByte s).pubW = s.pubW := by unfold startByte; simp only []; split <;> rfl
@[simp] theorem startByte_sgu (s : State) : (startByte s).sgu = s.sgu := by unfold startByte; simp only []; split <;> rfl
@[simp] theorem startByte_clu (s : State) : (startByte s).clu = s.clu := by unfold startByte; simp only []; split <;> rfl
@[simp] theorem startByte_iou (s : State) : (startByte s).iou = s.iou := by unfold startByte; simp only []; split <;> rfl
@[simp] theorem startByte_perms (s : State) : (startByte s).perms = s.perms := by unfold startByte; simp only []; split <;> rfl
@[simp] theorem startByte_svr (s : State) : (startByte s).svr = s.svr := by unfold startByte; simp only []; split <;> rfl
@[simp] theorem startByte_tbm (s : State) : (startByte s).tbm = s.tbm := by unfold startByte; simp only []; split <;> rfl
@[simp] theorem startByte_cfg (s : State) : (startByte s).cfg = s.cfg := by unfold startByte; simp only []; split <;> rfl
@[simp] theorem startByte_evu (s : State) : (startByte s).evu = s.evu := by unfold startByte; simp only []; split <;> rfl

@[simp] theorem formLeds_apart (s : State) : (formLeds s).pdu.apart = s.pdu.apart := by
  unfold formLeds; simp only []; split <;> rfl

@[simp] theorem placeLeds_apart (s : State) : (placeLeds s).pdu.apart = s.pdu.apart := by
  unfold placeLeds; simp only []; split <;> rfl

@[simp] theorem placeDisplay_apart (s : State) : (placeDisplay s).pdu.apart = s.pdu.apart := by
  unfold placeDisplay
  simp only []
  split
  · simp only [State.modPdu, Pdu.apart, List.map_map]
    rfl
  · rfl

@[simp] theorem startByte_apart (s : State) : (startByte s).pdu.apart = s.pdu.apart := by
  unfold startByte; simp only []; split <;> rfl

/-! ## The end of an event -/

@[simp] theorem finish_pending (s : State) : (finish s).pending = s.pending := by simp [finish]
@[simp] theorem finish_now (s : State) : (finish s).now = s.now := by simp [finish]
@[simp] theorem finish_free (s : State) : (finish s).free = s.free := by simp [finish]
@[simp] theorem finish_fsw (s : State) : (finish s).fsw = s.fsw := by simp [finish]
@[simp] theorem finish_pubX (s : State) : (finish s).pubX = s.pubX := by simp [finish]
@[simp] theorem finish_pubW (s : State) : (finish s).pubW = s.pubW := by simp [finish]
@[simp] theorem finish_sgu (s : State) : (finish s).sgu = s.sgu := by simp [finish]
@[simp] theorem finish_clu (s : State) : (finish s).clu = s.clu := by simp [finish]
@[simp] theorem finish_svr (s : State) : (finish s).svr = s.svr := by simp [finish]
@[simp] theorem finish_tbm (s : State) : (finish s).tbm = s.tbm := by simp [finish]
@[simp] theorem finish_cfg (s : State) : (finish s).cfg = s.cfg := by simp [finish]
@[simp] theorem finish_evu (s : State) : (finish s).evu = s.evu := by simp [finish]
@[simp] theorem finish_inputs (s : State) : (finish s).iou.inputs = s.iou.inputs := by simp [finish]

@[simp] theorem finish_perms (s : State) : (finish s).perms = evalPerms s := by simp [finish]

@[simp] theorem finish_axes (s : State) : (finish s).axes = (ileEval s).axes := by simp [finish]

theorem finish_axis (s : State) (a : Axis) : (finish s).axis a = (ileEval s).axis a := by simp [State.axis]

@[simp] theorem finish_axis_apart (s : State) (a : Axis) : ((finish s).axis a).apart = (s.axis a).apart := by
  rw [finish_axis, ileEval_axis_apart]

@[simp] theorem finish_pdu_apart (s : State) : (finish s).pdu.apart = s.pdu.apart := by simp [finish]

theorem finish_output (s : State) (n : Fin 32) :
    (finish s).iou.outputs[n] =
      if (s.cfg.outputs[n]).owner = .general then s.iou.outputs[n]
      else { s.iou.outputs[n] with on := calledLevel (ileEval s) n (s.cfg.outputs[n]).owner } := by
  simp only [finish, startByte_iou, placeDisplay_iou, placeLeds_iou, formLeds_iou, syncOwned_output, ileEval_cfg, ileEval_iou]
  rfl

theorem outputApart_finish (s : State) (n : Fin 32) :
    outputApart s.cfg.outputs[n] (finish s).iou.outputs[n] = outputApart s.cfg.outputs[n] s.iou.outputs[n] := by
  rw [finish_output]
  unfold outputApart
  split <;> rfl

/-- The end of an event changes nothing but what every event brings up to date. -/
@[simp] theorem finish_apart (s : State) : (finish s).apart = s.apart := by
  have hx := finish_axis_apart s .x
  have hy := finish_axis_apart s .y
  have hz := finish_axis_apart s .z
  have hw := finish_axis_apart s .w
  have hb := finish_axis_apart s .b
  have ho : ((finish s).iou.outputs.mapFinIdx fun i r _ => outputApart s.cfg.outputs[i] r) =
      s.iou.outputs.mapFinIdx fun i r _ => outputApart s.cfg.outputs[i] r := by
    ext i hi
    have := outputApart_finish s ⟨i, hi⟩
    simp only [Fin.getElem_fin] at this
    simp only [Vector.getElem_mapFinIdx, this]
  simp only [State.axis, PerAxis.get] at hx hy hz hw hb
  simp only [State.apart, finish_pending, finish_fsw, finish_pubX, finish_pubW, finish_sgu, finish_clu, finish_svr,
    finish_tbm, finish_cfg, finish_evu, finish_inputs, finish_pdu_apart, hx, hy, hz, hw, hb, ho]

end Sys2Proof.Machine
end

