-- ==== Sys2Proof/Laws/Events.lean ====
section
/-! SUPPORT. Raising and taking event records: the three tests of R194, and what they keep. -/

namespace Sys2Proof.Machine

theorem EventRec.dup_iff (e g : EventRec) : e.dup g = true ↔ e.code = g.code ∧ e.source = g.source := by
  simp [EventRec.dup]

/-- Everything the tests of R194 can do with a record. -/
theorem takeEvent_cases (cap : Nat) (l : List EventRec) (flag : Bool) (e : EventRec) :
    (l.any (e.dup ·) = true ∧ takeEvent cap l flag e = (l, flag)) ∨
    (l.any (e.dup ·) = false ∧ l.length < cap ∧ takeEvent cap l flag e = (l ++ [e], flag)) ∨
    (l.any (e.dup ·) = false ∧ cap ≤ l.length ∧ takeEvent cap l flag e = (l, true)) := by
  unfold takeEvent
  cases h : l.any (e.dup ·)
  · by_cases hl : l.length < cap
    · exact .inr (.inl ⟨rfl, hl, by simp [hl]⟩)
    · exact .inr (.inr ⟨rfl, Nat.le_of_not_lt hl, by simp [hl]⟩)
  · exact .inl ⟨rfl, by simp⟩

theorem noDuplicates_append {l : List EventRec} {e : EventRec} (h : noDuplicates l = true)
    (he : l.any (e.dup ·) = false) : noDuplicates (l ++ [e]) = true := by
  induction l with
  | nil => rfl
  | cons g l ih =>
    rw [List.any_cons, Bool.or_eq_false_iff] at he
    simp only [noDuplicates, Bool.and_eq_true, List.all_eq_true, List.cons_append, List.mem_append,
      List.mem_singleton] at h ⊢
    refine ⟨fun k hk => ?_, ih h.2 he.2⟩
    rcases hk with hk | rfl
    · exact h.1 k hk
    · have := he.1
      simp only [EventRec.dup, Bool.and_eq_false_iff, decide_eq_false_iff_not] at this
      simp only [EventRec.dup, Bool.not_eq_true', Bool.and_eq_false_iff, decide_eq_false_iff_not]
      exact this.imp (fun h e => h e.symm) (fun h e => h e.symm)

/-- Taking a record keeps the rules of the event lists. -/
theorem Evu.take_wf {v : Evu} (e : EventRec) (h : v.wf = true) : (v.take e).wf = true := by
  simp only [Evu.wf, Bool.and_eq_true, decide_eq_true_eq] at h
  obtain ⟨⟨⟨⟨⟨hu, hn⟩, hdu⟩, hdn⟩, hcu⟩, hcn⟩ := h
  unfold Evu.take
  cases hc : e.code.urgent
  · rcases takeEvent_cases 24 v.notices v.noticeOverflow e with ⟨-, ht⟩ | ⟨hd, hl, ht⟩ | ⟨-, -, ht⟩ <;>
      simp only [ht, Evu.wf, Bool.and_eq_true, decide_eq_true_eq, Bool.false_eq_true, if_false]
    · exact ⟨⟨⟨⟨⟨hu, hn⟩, hdu⟩, hdn⟩, hcu⟩, hcn⟩
    · refine ⟨⟨⟨⟨⟨hu, ?_⟩, hdu⟩, noDuplicates_append hdn hd⟩, hcu⟩, ?_⟩
      · simp only [List.length_append, List.length_singleton]; omega
      · rw [List.all_append, hcn]; simp [hc]
    · exact ⟨⟨⟨⟨⟨hu, hn⟩, hdu⟩, hdn⟩, hcu⟩, hcn⟩
  · rcases takeEvent_cases 8 v.urgent v.urgentOverflow e with ⟨-, ht⟩ | ⟨hd, hl, ht⟩ | ⟨-, -, ht⟩ <;>
      simp only [ht, Evu.wf, Bool.and_eq_true, decide_eq_true_eq, if_true]
    · exact ⟨⟨⟨⟨⟨hu, hn⟩, hdu⟩, hdn⟩, hcu⟩, hcn⟩
    · refine ⟨⟨⟨⟨⟨?_, hn⟩, noDuplicates_append hdu hd⟩, hdn⟩, ?_⟩, hcn⟩
      · simp only [List.length_append, List.length_singleton]; omega
      · rw [List.all_append, hcu]; simp [hc]
    · exact ⟨⟨⟨⟨⟨hu, hn⟩, hdu⟩, hdn⟩, hcu⟩, hcn⟩

end Sys2Proof.Machine
end

