-- ==== Sys2Proof/Laws/Order.lean ====
section
/-! SUPPORT. Free orders, free choices and timer expiries: what each can do, said once. -/

namespace Sys2Proof.Machine

/-! ## What an operation leaves -/

/-- `g` leaves the part `f` of the state as it is. -/
def Keeps {α : Type} (f : State → α) (g : State → State) : Prop := ∀ s, f (g s) = f s

theorem Keeps.comp {α : Type} {f : State → α} {g h : State → State} (hg : Keeps f g) (hh : Keeps f h) :
    Keeps f (fun s => g (h s)) := fun s => by rw [hg, hh]

theorem Keeps.ite {α : Type} {f : State → α} {c : State → Prop} [DecidablePred c] {g h : State → State}
    (hg : Keeps f g) (hh : Keeps f h) : Keeps f (fun s => if c s then g s else h s) := fun s => by
  show f (if c s then g s else h s) = f s
  by_cases hc : c s
  · rw [if_pos hc, hg]
  · rw [if_neg hc, hh]

theorem Keeps.runAll {α : Type} {f : State → α} {items : List (State → State)} (h : ∀ g ∈ items, Keeps f g) :
    Keeps f (runAll items) := by
  induction items with
  | nil => intro s; rfl
  | cons g l ih =>
    intro s
    show f (Machine.runAll l (g s)) = f s
    rw [ih (fun k hk => h k (List.mem_cons_of_mem _ hk)), h g List.mem_cons_self]

/-- A property that every item keeps is kept by their sequence. -/
theorem runAll_induction {P : State → Prop} {items : List (State → State)} {s : State} (hs : P s)
    (h : ∀ g ∈ items, ∀ u, P u → P (g u)) : P (runAll items s) := by
  induction items generalizing s with
  | nil => exact hs
  | cons g l ih =>
    exact ih (h g List.mem_cons_self s hs) fun k hk => h k (List.mem_cons_of_mem _ hk)

/-! ## Free orders -/

theorem insertKeyed_perm {α : Type} (p : Nat × α) (l : List (Nat × α)) : (insertKeyed p l).Perm (p :: l) := by
  induction l with
  | nil => exact List.Perm.refl _
  | cons q l ih =>
    unfold insertKeyed
    split
    · exact List.Perm.refl _
    · exact (List.Perm.cons q ih).trans (List.Perm.swap p q l)

theorem foldr_insertKeyed_perm {α : Type} (l : List (Nat × α)) : (l.foldr insertKeyed []).Perm l := by
  induction l with
  | nil => exact List.Perm.refl _
  | cons p l ih => exact (insertKeyed_perm p _).trans (List.Perm.cons p ih)

theorem map_fst_zipIdx {α : Type} (l : List α) (n : Nat) : (l.zipIdx n).map Prod.fst = l := by
  induction l generalizing n with
  | nil => rfl
  | cons x l ih =>
    rw [List.zipIdx_cons, List.map_cons, ih]

/-- A free order is an order of the same items. -/
theorem permute_perm {α : Type} (n : Nat) (l : List α) : (permute n l).Perm l := by
  have h := (foldr_insertKeyed_perm (l.zipIdx.map fun p => (Config.freeKey n p.2, p.1))).map Prod.snd
  have e : (l.zipIdx.map fun p => (Config.freeKey n p.2, p.1)).map Prod.snd = l := by
    rw [List.map_map]
    exact map_fst_zipIdx l 0
  rw [e] at h
  exact h

/-- Everything `anyOrder` can do: the items one after the other, in some order, with or without one more free choice
counted. -/
theorem anyOrder_cases (items : List (State → State)) (s : State) :
    ∃ l n, l.Perm items ∧ (n = s.free ∨ n = s.free + 1) ∧ anyOrder items s = runAll l { s with free := n } := by
  unfold anyOrder
  by_cases h : runAll items s = runAll items.reverse s
  · exact ⟨items, s.free, List.Perm.refl _, .inl rfl, by simp only [if_pos h]⟩
  · exact ⟨permute s.free items, s.free + 1, permute_perm _ _, .inr rfl, by simp only [if_neg h]⟩

/-- A property that every item keeps, and that does not read the counter of free choices, is kept by any order. -/
theorem anyOrder_induction {P : State → Prop} {items : List (State → State)} {s : State} (hs : P s)
    (hfree : ∀ u n, P u → P { u with free := n }) (h : ∀ g ∈ items, ∀ u, P u → P (g u)) : P (anyOrder items s) := by
  obtain ⟨l, n, hl, -, e⟩ := anyOrder_cases items s
  rw [e]
  exact runAll_induction (hfree s n hs) fun g hg => h g (hl.mem_iff.mp hg)

theorem Keeps.anyOrder {α : Type} {f : State → α} {items : List (State → State)}
    (hfree : ∀ (s : State) n, f { s with free := n } = f s) (h : ∀ g ∈ items, Keeps f g) :
    Keeps f (anyOrder items) := fun s =>
  anyOrder_induction (P := fun u => f u = f s) rfl (fun u n hu => (hfree u n).trans hu)
    fun g hg u hu => (h g hg u).trans hu

/-- Everything the formation of a frame can do: parts and request in some order. -/
theorem formFrame_cases (parts : List (State → State)) (request : State → State) (s : State) :
    ∃ l n, l.Perm ((true, request) :: parts.map fun g => (false, g)) ∧ (n = s.free ∨ n = s.free + 1) ∧
      formFrame parts request s = formInOrder l { s with free := n } := by
  unfold formFrame
  by_cases h : formInOrder ((true, request) :: parts.map fun g => (false, g)) s =
      formInOrder ((true, request) :: parts.map fun g => (false, g)).reverse s
  · exact ⟨_, s.free, List.Perm.refl _, .inl rfl, by simp only [if_pos h]⟩
  · exact ⟨permute s.free ((true, request) :: parts.map fun g => (false, g)), s.free + 1, permute_perm _ _, .inr rfl,
      by simp only [if_neg h]⟩

/-- A property of the state that the request and every part keep is kept by the formation. -/
theorem formFrame_induction {P : State → Prop} {parts : List (State → State)} {request : State → State} {s : State}
    (hs : P s) (hfree : ∀ u n, P u → P { u with free := n }) (hr : ∀ u, P u → P (request u))
    (h : ∀ g ∈ parts, ∀ u, P u → P (g u)) : P (formFrame parts request s).1 := by
  obtain ⟨l, n, hl, -, e⟩ := formFrame_cases parts request s
  rw [e]
  have items : ∀ p ∈ l, ∀ u, P u → P (p.2 u) := by
    intro p hp u hu
    rcases List.mem_cons.mp (hl.mem_iff.mp hp) with rfl | hm
    · exact hr u hu
    · obtain ⟨g, hg, rfl⟩ := List.mem_map.mp hm
      exact h g hg u hu
  have fold : ∀ (k : List (Bool × (State → State))) (x : Formed), (∀ p ∈ k, ∀ u, P u → P (p.2 u)) → P x.1 →
      P (k.foldl (fun x p => formItem p x) x).1 := by
    intro k
    induction k with
    | nil => intro x _ hx; exact hx
    | cons p k ih =>
      intro x hk hx
      exact ih _ (fun q hq => hk q (List.mem_cons_of_mem _ hq)) (hk p List.mem_cons_self x.1 hx)
  exact fold l _ items (hfree s n hs)

/-! ## Free choices and expiries -/

theorem freeChoice_cases (yes no : State → State) (s : State) :
    freeChoice yes no s = yes { s with free := s.free + 1 } ∨ freeChoice yes no s = no { s with free := s.free + 1 } := by
  unfold freeChoice
  cases Config.freeBit s.free
  · exact .inr rfl
  · exact .inl rfl

/-- A read of the permission set leaves it, or finds it evaluated. -/
theorem ileMay_cases (s : State) :
    ileMay s = s ∨ ileMay s = { s with free := s.free + 1 } ∨ ileMay s = ileEval { s with free := s.free + 1 } := by
  unfold ileMay
  split
  · exact .inl rfl
  · rcases freeChoice_cases ileEval id s with h | h
    · exact .inr (.inr h)
    · exact .inr (.inl h)

theorem ileMay_current {s : State} (h : s.perms = evalPerms s) : ileMay s = s := by
  unfold ileMay
  rw [if_pos h.symm]

@[simp] theorem onExpiry_none (act : State → State) (s : State) : onExpiry none act s = s := rfl

@[simp] theorem onExpiry_some (e : Nat) (act : State → State) (s : State) :
    onExpiry (some e) act s = act { s with now := max s.now e } := rfl

theorem answerExpiry_some {t : Timer} {e : Nat} (h : t = some e) (act : State → State) (s : State) :
    answerExpiry t act s = .next (finish (act { s with now := max s.now e })) := by
  subst h; rfl

theorem answerExpiry_none {t : Timer} (h : t = none) (act : State → State) (s : State) :
    answerExpiry t act s = .next s := by
  subst h; rfl

end Sys2Proof.Machine
end

