-- ==== Sys2Proof/Laws/Footprints.lean ====
section
/-! SUPPORT. What each shared operation may write (`onlyWrites`): a calculus, and one footprint for each operation. -/

namespace Sys2Proof.Machine

/-! ## The calculus -/

theorem onlyWrites_refl (w : Writes) (s : State) : onlyWrites w s s := rfl

theorem onlyWrites.trans {w : Writes} {s t u : State} (h : onlyWrites w s t) (k : onlyWrites w t u) :
    onlyWrites w s u :=
  Eq.trans k h

/-- Everything that `w` allows, `w'` allows. -/
def Writes.le (w w' : Writes) : Bool :=
  (!w.fsw || w'.fsw) && (!w.axes || w'.axes) && (!w.pubs || w'.pubs) && (!w.sgu || w'.sgu) && (!w.clu || w'.clu) &&
    (!w.inputs || w'.inputs) && (!w.outputs || w'.outputs) && (!w.pdu || w'.pdu) && (!w.svr || w'.svr) &&
    (!w.tbm || w'.tbm) && (!w.cfg || w'.cfg) && (!w.evu || w'.evu)

theorem ite_ite_of_le {α : Type} {b c : Bool} (h : (!b || c) = true) (r x : α) :
    (if c then r else if b then r else x) = if c then r else x := by
  cases b <;> cases c <;> first | rfl | cases h

theorem State.blank_blank {w w' : Writes} (h : w.le w' = true) (s : State) : (s.blank w).blank w' = s.blank w' := by
  simp only [Writes.le, Bool.and_eq_true] at h
  obtain ⟨⟨⟨⟨⟨⟨⟨⟨⟨⟨⟨h1, h2⟩, h3⟩, h4⟩, h5⟩, h6⟩, h7⟩, h8⟩, h9⟩, h10⟩, h11⟩, h12⟩ := h
  simp only [State.blank, ite_ite_of_le h1, ite_ite_of_le h2, ite_ite_of_le h3, ite_ite_of_le h4, ite_ite_of_le h5,
    ite_ite_of_le h6, ite_ite_of_le h7, ite_ite_of_le h8, ite_ite_of_le h9, ite_ite_of_le h10, ite_ite_of_le h11,
    ite_ite_of_le h12]

theorem onlyWrites.mono {w w' : Writes} {s t : State} (h : onlyWrites w s t) (hw : w.le w' = true := by rfl) :
    onlyWrites w' s t := by
  unfold onlyWrites at h ⊢
  rw [← State.blank_blank hw, h, State.blank_blank hw]

theorem onlyWrites_ite {w : Writes} {c : Prop} [Decidable c] {s t u : State} (ht : onlyWrites w s t)
    (hu : onlyWrites w s u) : onlyWrites w s (if c then t else u) := by
  by_cases h : c
  · rw [if_pos h]; exact ht
  · rw [if_neg h]; exact hu

theorem onlyWrites_runAll {w : Writes} {items : List (State → State)} (h : ∀ g ∈ items, ∀ u, onlyWrites w u (g u))
    (s : State) : onlyWrites w s (runAll items s) :=
  runAll_induction (P := onlyWrites w s) (onlyWrites_refl w s) fun g hg u hu => hu.trans (h g hg u)

theorem onlyWrites_free (w : Writes) (s : State) (n : Nat) : onlyWrites w s { s with free := n } := rfl

theorem onlyWrites_now (w : Writes) (s : State) (n : Nat) : onlyWrites w s { s with now := n } := rfl

theorem onlyWrites_anyOrder {w : Writes} {items : List (State → State)} (h : ∀ g ∈ items, ∀ u, onlyWrites w u (g u))
    (s : State) : onlyWrites w s (anyOrder items s) :=
  anyOrder_induction (P := onlyWrites w s) (onlyWrites_refl w s) (fun u n hu => hu.trans (onlyWrites_free w u n))
    fun g hg u hu => hu.trans (h g hg u)

theorem onlyWrites_foldl {α : Type} {w : Writes} {f : State → α → State} (h : ∀ u x, onlyWrites w u (f u x))
    (l : List α) (s : State) : onlyWrites w s (l.foldl f s) := by
  induction l generalizing s with
  | nil => exact onlyWrites_refl w s
  | cons x l ih => exact (h s x).trans (ih (f s x))

/-! ## Updates of one part -/

theorem onlyWrites_modAxis (s : State) (a : Axis) (g : AxisRec → AxisRec) :
    onlyWrites { axes := true } s (s.modAxis a g) := rfl

theorem onlyWrites_modAxes (s : State) (g : AxisRec → AxisRec) : onlyWrites { axes := true } s (s.modAxes g) := rfl

theorem onlyWrites_modSgu (s : State) (g : Sgu → Sgu) : onlyWrites { sgu := true } s (s.modSgu g) := rfl

theorem onlyWrites_modClu (s : State) (g : Clu → Clu) : onlyWrites { clu := true } s (s.modClu g) := rfl

theorem onlyWrites_modPdu (s : State) (g : Pdu → Pdu) : onlyWrites { pdu := true } s (s.modPdu g) := rfl

theorem onlyWrites_modSvr (s : State) (g : Svr → Svr) : onlyWrites { svr := true } s (s.modSvr g) := rfl

theorem onlyWrites_modTbm (s : State) (g : Tbm → Tbm) : onlyWrites { tbm := true } s (s.modTbm g) := rfl

theorem onlyWrites_modFsw (s : State) (g : Fsw → Fsw) : onlyWrites { fsw := true } s (s.modFsw g) := rfl

theorem onlyWrites_setInput (s : State) (n : Fin 48) (r : InputRec) :
    onlyWrites { inputs := true } s (s.setInput n r) := rfl

theorem onlyWrites_setOutput (s : State) (n : Fin 32) (r : OutputRec) :
    onlyWrites { outputs := true } s (s.setOutput n r) := rfl

theorem onlyWrites_raise (s : State) (c : Code) (src : Source) (d : Nat) :
    onlyWrites { evu := true } s (raise c src d s) := rfl

/-- An evaluation of the permissions is what every event brings up to date. -/
theorem onlyWrites_ileEval (s : State) : onlyWrites { } s (ileEval s) := rfl

theorem onlyWrites_ileMay (s : State) : onlyWrites { } s (ileMay s) := by
  rcases ileMay_cases s with h | h | h <;> rw [h] <;> rfl

theorem onlyWrites_finish (w : Writes) (s : State) : onlyWrites w s (finish s) := by
  unfold onlyWrites
  rw [finish_apart]

/-! ## Axes -/

theorem onlyWrites_setClampHold (a : Axis) (s : State) : onlyWrites { axes := true } s (setClampHold a s) := rfl

theorem onlyWrites_resolveClampFault (a : Axis) (s : State) : onlyWrites { axes := true } s (resolveClampFault a s) := by
  unfold resolveClampFault
  simp only []
  repeat' split
  all_goals rfl

theorem onlyWrites_clampedConfirmChange (a : Axis) (v : Bool) (s : State) :
    onlyWrites { axes := true } s (clampedConfirmChange a v s) := by
  unfold clampedConfirmChange
  repeat' split
  all_goals first | rfl | exact onlyWrites_resolveClampFault a s

theorem onlyWrites_unclampedConfirmChange (a : Axis) (v : Bool) (s : State) :
    onlyWrites { axes := true } s (unclampedConfirmChange a v s) := by
  unfold unclampedConfirmChange
  repeat' split
  all_goals first | rfl | exact onlyWrites_resolveClampFault a s

theorem onlyWrites_raiseAxisFault (a : Axis) (r : AxisReason) (c : Byte) (s : State) :
    onlyWrites { axes := true, evu := true } s (raiseAxisFault a r c s) := by
  unfold raiseAxisFault
  simp only []
  split <;> rfl

theorem onlyWrites_posLimitChange (a : Axis) (v : Bool) (s : State) :
    onlyWrites { axes := true, evu := true } s (posLimitChange a v s) := by
  unfold posLimitChange
  split
  · exact onlyWrites_raiseAxisFault a _ _ s
  · rfl

theorem onlyWrites_negLimitChange (a : Axis) (v : Bool) (s : State) :
    onlyWrites { axes := true, evu := true } s (negLimitChange a v s) := by
  unfold negLimitChange
  split
  · exact onlyWrites_raiseAxisFault a _ _ s
  · rfl

/-- A conditioned change at an axis conditioner writes axis records and events alone. -/
theorem onlyWrites_axisInputChange (a : Axis) (n : Fin 48) (s : State) :
    onlyWrites { axes := true, evu := true } s (axisInputChange a n s) := by
  have limits : onlyWrites { axes := true, evu := true } s (limitInputChange a n s) := by
    unfold limitInputChange
    simp only []
    refine onlyWrites.trans (t := if (s.cfg.axis.get a).posLimit = some n then posLimitChange a (s.input n) s else s)
      (onlyWrites_ite (onlyWrites_posLimitChange a _ s) (onlyWrites_refl _ s)) ?_
    exact onlyWrites_ite (onlyWrites_negLimitChange a _ _) (onlyWrites_refl _ _)
  refine limits.trans ?_
  show onlyWrites _ _ (clampInputChange a n (limitInputChange a n s))
  generalize limitInputChange a n s = u
  unfold clampInputChange
  split
  · exact onlyWrites_refl _ u
  · rename_i c _
    simp only []
    refine onlyWrites.trans (t := if c.clamped = n then clampedConfirmChange a (u.input n) u else u)
      (onlyWrites_ite ((onlyWrites_clampedConfirmChange a _ u).mono) (onlyWrites_refl _ u)) ?_
    exact onlyWrites_ite ((onlyWrites_unclampedConfirmChange a _ _).mono) (onlyWrites_refl _ _)

/-- A return at an axis conditioner writes axis records and events alone. -/
theorem onlyWrites_axisReturn (a : Axis) (q : Byte) (v : Int) (st : Nat) (c : Byte) (s : State) :
    onlyWrites { axes := true, evu := true } s (axisReturn a q v st c s) := by
  have corrected : onlyWrites { axes := true, evu := true } s (correctReturn a q v s) := by
    unfold correctReturn
    simp only []
    repeat' split
    · rfl
    · exact (onlyWrites_modAxis s a _).mono.trans (onlyWrites_raiseAxisFault a _ _ _)
    · rfl
  refine corrected.trans ?_
  show onlyWrites _ _ (axisDriveStatus a st c (correctReturn a q v s))
  generalize correctReturn a q v s = u
  unfold axisDriveStatus
  repeat' split
  · exact onlyWrites_refl _ u
  · exact (onlyWrites_modAxis u a _).mono.trans (onlyWrites_raiseAxisFault a _ _ _)
  · rfl

theorem onlyWrites_axisTake (a : Axis) (cmd : Option AxisCmd) (s : State) :
    onlyWrites { axes := true } s (axisTake a cmd s) := by
  have unclamp : ∀ u, onlyWrites { axes := true } u (unclampIfPermitted a (setClampHold a (ileMay u))) := fun u => by
    refine ((onlyWrites_ileMay u).mono.trans (onlyWrites_setClampHold a _)).trans ?_
    generalize setClampHold a (ileMay u) = v
    unfold unclampIfPermitted
    split <;> rfl
  unfold axisTake
  simp only []
  cases cmd with
  | none => exact (onlyWrites_modAxis s a _).trans (unclamp _)
  | some c => exact (onlyWrites_modAxis s a _).trans ((onlyWrites_modAxis _ a _).trans (unclamp _))

theorem onlyWrites_axisOverlay (a : Axis) (cmd : Option AxisCmd) (s : State) :
    onlyWrites { axes := true, evu := true } s (axisOverlay a cmd s) := by
  unfold axisOverlay applyIncrement
  simp only []
  repeat' split
  all_goals rfl

/-- Two marked conditions raise two records at most. -/
theorem onlyWrites_raiseTwo {w : Writes} {c₁ c₂ : Prop} [Decidable c₁] [Decidable c₂] {k₁ k₂ : Code} {o₁ o₂ : Source}
    {d₁ d₂ : Nat} {s t : State} (h : onlyWrites w s t) (hw : ({ evu := true } : Writes).le w = true := by rfl) :
    onlyWrites w s (if c₂ then raise k₂ o₂ d₂ (if c₁ then raise k₁ o₁ d₁ t else t)
      else if c₁ then raise k₁ o₁ d₁ t else t) := by
  have first : onlyWrites w s (if c₁ then raise k₁ o₁ d₁ t else t) :=
    onlyWrites_ite (h.trans ((onlyWrites_raise t k₁ o₁ d₁).mono hw)) h
  exact onlyWrites_ite (first.trans ((onlyWrites_raise _ k₂ o₂ d₂).mono hw)) first

theorem onlyWrites_axisMove (a : Axis) (s : State) : onlyWrites { axes := true, evu := true } s (axisMove a s) :=
  onlyWrites_raiseTwo (onlyWrites_modAxis s a _).mono

/-- All that `clampIfRequested` can do (R39, R17): nothing, or clamping begins under the frame's own clamp
configuration. -/
theorem clampIfRequested_cases (a : Axis) (st : Follower) (s : State) :
    clampIfRequested a st s = s ∨
      ∃ c, (s.cfg.axis.get a).clamp.isSome = true ∧ (s.axis a).frameClamp = some c ∧ (s.axis a).clamp = .free ∧
        (s.axis a).follower = st ∧ (s.axis a).slot.clampRequest = true ∧
        clampIfRequested a st s = beginClamping a c s := by
  by_cases active : (s.cfg.axis.get a).clamp.isSome = true
  · cases copy : (s.axis a).frameClamp with
    | none => simp [clampIfRequested, clampOfFrame, copy]
    | some c =>
      by_cases due : (s.axis a).clamp = .free ∧ (s.axis a).follower = st ∧ (s.axis a).slot.clampRequest = true
      · refine .inr ⟨c, active, rfl, due.1, due.2.1, due.2.2, ?_⟩
        simp [clampIfRequested, clampOfFrame, active, copy, due]
      · exact .inl (by simp [clampIfRequested, clampOfFrame, active, copy, due])
  · simp [clampIfRequested, clampOfFrame, active]

theorem onlyWrites_clampIfRequested (a : Axis) (st : Follower) (s : State) :
    onlyWrites { axes := true } s (clampIfRequested a st s) := by
  rcases clampIfRequested_cases a st s with e | ⟨c, _, _, _, _, _, e⟩ <;> rw [e] <;> rfl

/-- The part of one axis conditioner in a drive frame writes axis records and events alone. -/
theorem onlyWrites_axisFrame (a : Axis) (cmd : Option AxisCmd) (q : Byte) (s : State) :
    onlyWrites { axes := true, evu := true } s (axisFrame a cmd q s) := by
  unfold axisFrame
  refine (onlyWrites_axisTake a cmd s).mono.trans ((onlyWrites_axisOverlay a cmd _).trans
    ((onlyWrites_axisMove a _).trans ((onlyWrites_clampIfRequested a .disabled _).mono.trans rfl)))

theorem onlyWrites_axisFrameEnd (a : Axis) (s : State) : onlyWrites { axes := true } s (axisFrameEnd a s) := by
  unfold axisFrameEnd
  refine onlyWrites.trans ?_ (onlyWrites_clampIfRequested a .held _)
  simp only []
  split <;> rfl

/-! ## Coolant -/

theorem onlyWrites_modCircuit (s : State) (c : Circuit) (g : CircuitRec → CircuitRec) :
    onlyWrites { clu := true } s (s.modCircuit c g) := rfl

theorem onlyWrites_setPw (s : State) (ch : Channel) (p : Pw) : onlyWrites { clu := true } s (s.setPw ch p) := by
  cases ch <;> rfl

theorem onlyWrites_stageCircuit (c : Circuit) (s : State) : onlyWrites { clu := true } s (stageCircuit c s) := by
  cases c <;> rfl

theorem onlyWrites_stopCircuit (c : Circuit) (s : State) : onlyWrites { clu := true } s (stopCircuit c s) := by
  cases c <;> rfl

theorem onlyWrites_startCircuit (c : Circuit) (s : State) : onlyWrites { clu := true } s (startCircuit c s) := by
  unfold startCircuit
  split <;> cases c <;> rfl

theorem onlyWrites_placeLossHold (s : State) : onlyWrites { axes := true, clu := true } s (placeLossHold s) := by
  unfold placeLossHold
  simp only []
  split <;> rfl

theorem onlyWrites_enterFaulted (c : Circuit) (r : CircuitFault) (s : State) :
    onlyWrites { axes := true, clu := true, evu := true } s (enterFaulted c r s) := by
  unfold enterFaulted
  simp only []
  refine (onlyWrites_modCircuit s c _).mono.trans ((onlyWrites_stageCircuit c _).mono.trans
    ((onlyWrites_raise _ _ _ _).mono.trans (onlyWrites_ite (onlyWrites_placeLossHold _).mono (onlyWrites_refl _ _))))

theorem onlyWrites_pressureChange (c : Circuit) (v : Bool) (s : State) :
    onlyWrites { axes := true, clu := true, evu := true } s (pressureChange c v s) := by
  unfold pressureChange
  repeat' split
  all_goals first
    | exact (onlyWrites_modCircuit s c _).mono.trans (onlyWrites_stageCircuit c _).mono
    | exact (onlyWrites_modCircuit s c _).mono
    | exact onlyWrites_enterFaulted c _ s
    | exact onlyWrites_refl _ s

theorem onlyWrites_stopNow (d : Nat) (c : Circuit) (s : State) :
    onlyWrites { clu := true, evu := true } s (stopNow d c s) := by
  unfold stopNow
  split
  · exact (onlyWrites_stopCircuit c s).mono.trans (onlyWrites_raise _ _ _ _).mono
  · exact onlyWrites_refl _ s

theorem onlyWrites_stopAllNow (d : Nat) (s : State) : onlyWrites { clu := true, evu := true } s (stopAllNow d s) :=
  (onlyWrites_stopNow d .flood s).trans ((onlyWrites_stopNow d .through _).trans (onlyWrites_stopNow d .air _))

/-- A conditioned change at the CLU writes its circuits, the coolant-loss hold and events alone. -/
theorem onlyWrites_coolantInputChange (n : Fin 48) (s : State) :
    onlyWrites { axes := true, clu := true, evu := true } s (coolantInputChange n s) := by
  unfold coolantInputChange
  simp only []
  refine onlyWrites.trans ?_ (onlyWrites_ite (onlyWrites_stopAllNow _ _).mono (onlyWrites_refl _ _))
  refine onlyWrites.trans ?_ (onlyWrites_ite (onlyWrites_pressureChange .air _ _) (onlyWrites_refl _ _))
  refine onlyWrites.trans ?_ (onlyWrites_ite (onlyWrites_pressureChange .through _ _) (onlyWrites_refl _ _))
  exact onlyWrites_ite (onlyWrites_pressureChange .flood _ _) (onlyWrites_refl _ _)

theorem onlyWrites_stopTest (i : CoolantIn) (c : Circuit) (s : State) :
    onlyWrites { clu := true, evu := true } s (stopTest i c s) := by
  unfold stopTest
  simp only []
  repeat' split
  all_goals first
    | exact (onlyWrites_stopCircuit c s).mono.trans (onlyWrites_raise _ _ _ _).mono
    | exact (onlyWrites_stopCircuit c s).mono
    | exact onlyWrites_refl _ s

theorem onlyWrites_startTest (i : CoolantIn) (c : Circuit) (s : State) :
    onlyWrites { clu := true } s (startTest i c s) := by
  unfold startTest
  simp only []
  exact onlyWrites_ite (onlyWrites_startCircuit c s) (onlyWrites_refl _ s)

/-- The CLU in a drive frame writes its circuits, its channels and events alone. -/
theorem onlyWrites_coolantFrame (cmd : Option CoolantCmd) (s : State) :
    onlyWrites { clu := true, evu := true } s (coolantFrame cmd s) := by
  have taken : onlyWrites { clu := true, evu := true } s (takeCoolant cmd s) := by cases cmd <;> rfl
  refine taken.trans ?_
  show onlyWrites _ _ (stageChannel .pw1 (stageChannel .pw0 (startTest _ .flood (startTest _ .air (startTest _ .through
    (stopTest _ .air (stopTest _ .through (stopTest _ .flood (takeCoolant cmd s)))))))))
  generalize coolantIn (takeCoolant cmd s) = i
  generalize takeCoolant cmd s = u
  refine onlyWrites.trans ?_ (onlyWrites_setPw _ .pw1 _).mono
  refine onlyWrites.trans ?_ (onlyWrites_setPw _ .pw0 _).mono
  refine onlyWrites.trans ?_ (onlyWrites_startTest i .flood _).mono
  refine onlyWrites.trans ?_ (onlyWrites_startTest i .air _).mono
  refine onlyWrites.trans ?_ (onlyWrites_startTest i .through _).mono
  refine onlyWrites.trans ?_ (onlyWrites_stopTest i .air _)
  exact (onlyWrites_stopTest i .flood u).trans (onlyWrites_stopTest i .through _)

/-! ## Gear shift -/

theorem onlyWrites_watchSettled (s : State) : onlyWrites { sgu := true } s (watchSettled s) := rfl

theorem onlyWrites_watchUnknown (s : State) : onlyWrites { sgu := true } s (watchUnknown s) := rfl

theorem onlyWrites_enterUnknown (s : State) : onlyWrites { sgu := true } s (enterUnknown s) := rfl

theorem onlyWrites_enterSettled (r : Option Gear) (s : State) : onlyWrites { sgu := true } s (enterSettled r s) := rfl

theorem onlyWrites_raiseSpindleFault (r : SpindleReason) (c : Byte) (l : Nat) (s : State) :
    onlyWrites { sgu := true, evu := true } s (raiseSpindleFault r c l s) := by
  unfold raiseSpindleFault
  split
  · rfl
  · cases r <;> rfl

theorem onlyWrites_readGearShift (s : State) : onlyWrites { sgu := true, evu := true } s (readGearShift s) := by
  unfold readGearShift
  simp only []
  exact (onlyWrites_ileMay s).mono.trans (onlyWrites_ite rfl rfl)

theorem onlyWrites_startShift (r : Gear) (s : State) : onlyWrites { sgu := true, evu := true } s (startShift r s) := by
  unfold startShift
  simp only []
  exact (onlyWrites_modSgu s _).mono.trans (onlyWrites_ite rfl (onlyWrites_readGearShift _))

theorem onlyWrites_takePurgeRequest (s : State) : onlyWrites { clu := true } s (takePurgeRequest s) := by
  unfold takePurgeRequest
  exact onlyWrites_ite rfl (onlyWrites_refl _ s)

theorem onlyWrites_answerPurge (s : State) :
    onlyWrites { sgu := true, clu := true, evu := true } s (answerPurge s) := by
  unfold answerPurge
  refine onlyWrites_ite ?_ (onlyWrites_refl _ s)
  exact (onlyWrites_takePurgeRequest s).mono.trans ((onlyWrites_modSgu _ _).mono.trans (onlyWrites_readGearShift _).mono)

theorem onlyWrites_startShiftNow (r : Gear) (s : State) :
    onlyWrites { sgu := true, clu := true, evu := true } s (startShiftNow r s) :=
  (onlyWrites_startShift r s).mono.trans (onlyWrites_answerPurge _)

theorem onlyWrites_enterShifting (s : State) : onlyWrites { sgu := true } s (enterShifting s) := by
  unfold enterShifting
  simp only []
  exact onlyWrites_ite rfl rfl

theorem onlyWrites_enterFailed (s : State) : onlyWrites { sgu := true, evu := true } s (enterFailed s) := rfl

theorem onlyWrites_attemptFails (w : ShiftFailure) (s : State) :
    onlyWrites { sgu := true, evu := true } s (attemptFails w s) := by
  unfold attemptFails
  simp only []
  exact onlyWrites_ite rfl rfl

/-- A change of a gear sensor writes the gear record and events alone. -/
theorem onlyWrites_sensorChange (g : Gear) (v : Bool) (s : State) :
    onlyWrites { sgu := true, evu := true } s (sensorChange g v s) := by
  unfold sensorChange
  simp only []
  repeat' split
  all_goals first
    | rfl
    | exact (onlyWrites_modSgu s _).mono.trans (onlyWrites_attemptFails _ _)

theorem onlyWrites_spindleInputChange (n : Fin 48) (s : State) :
    onlyWrites { sgu := true, evu := true } s (spindleInputChange n s) := by
  unfold spindleInputChange
  repeat' split
  · exact onlyWrites_refl _ s
  · exact onlyWrites_refl _ s
  · exact onlyWrites_sensorChange _ _ s

theorem onlyWrites_cancelShift (s : State) : onlyWrites { sgu := true, evu := true } s (cancelShift s) := by
  refine onlyWrites.trans ?_ (onlyWrites_raise _ .shiftCancelled .spindle (gearNumber s.sgu.target)).mono
  show onlyWrites _ _ (match s.sgu.current with
    | some r => enterSettled (some r) _
    | none => enterUnknown _)
  split <;> rfl

theorem onlyWrites_takePending (s : State) : onlyWrites { sgu := true, clu := true, evu := true } s (takePending s) := by
  unfold takePending
  split
  · exact onlyWrites_refl _ s
  · exact (onlyWrites_modSgu s _).mono.trans (onlyWrites_ite (onlyWrites_refl _ _) (onlyWrites_startShiftNow _ _))

theorem onlyWrites_newRequest (r : Gear) (s : State) : onlyWrites { sgu := true, evu := true } s (newRequest r s) := by
  unfold newRequest
  repeat' split
  all_goals first
    | rfl
    | exact onlyWrites_startShift r s

theorem onlyWrites_rangeRequest (v : Nat) (s : State) : onlyWrites { sgu := true, evu := true } s (rangeRequest v s) := by
  unfold rangeRequest
  simp only []
  split
  · exact (onlyWrites_modSgu s _).mono
  · exact onlyWrites_ite (onlyWrites_modSgu s _).mono ((onlyWrites_modSgu s _).mono.trans (onlyWrites_newRequest _ _))

/-- The SGU in a drive frame writes the gear record, a purge and events alone. -/
theorem onlyWrites_spindleFrame (cmd : Option SpindleCmd) (s : State) :
    onlyWrites { sgu := true, clu := true, evu := true } s (spindleFrame cmd s) := by
  unfold spindleFrame
  simp only []
  refine onlyWrites.trans (t := (match cmd with
    | none => s
    | some c => rangeRequest c.request (s.modSgu fun g => { g with slot := c.slot }))) ?_ ?_
  · cases cmd with
    | none => exact onlyWrites_refl _ s
    | some c => exact (onlyWrites_modSgu s _).mono.trans (onlyWrites_rangeRequest _ _).mono
  · refine (onlyWrites_ileMay _).mono.trans (onlyWrites.trans ?_ ((onlyWrites_modSgu _ _).mono.trans
      (onlyWrites_answerPurge _)))
    unfold awaitRead
    exact onlyWrites_ite rfl (onlyWrites_refl _ _)

/-- The station 6 part of a return writes the gear record and events alone. -/
theorem onlyWrites_spindleReturn (v : Int) (st : Nat) (c : Byte) (s : State) :
    onlyWrites { sgu := true, evu := true } s (spindleReturn v st c s) := by
  have status : ∀ u, onlyWrites { sgu := true, evu := true } u (spindleDriveStatus st c u) := fun u => by
    unfold spindleDriveStatus
    repeat' split
    · exact onlyWrites_refl _ _
    · exact (onlyWrites_modSgu u _).mono.trans (onlyWrites_raiseSpindleFault _ _ _ _)
    · rfl
  have taken : onlyWrites { sgu := true, evu := true } s
      (spindleDriveStatus st c (s.modSgu fun g => { g with actual := v, stale := false, returned := true })) :=
    (onlyWrites_modSgu s _).mono.trans (status _)
  refine taken.trans ?_
  unfold spindleReturn
  generalize spindleDriveStatus st c _ = u
  simp only []
  refine onlyWrites.trans (onlyWrites_ite ?_ (onlyWrites_refl _ _)) (onlyWrites_ite rfl (onlyWrites_refl _ _))
  exact (onlyWrites_modSgu u _).mono.trans (onlyWrites_enterShifting _).mono

/-! ## Inputs and outputs -/

theorem onlyWrites_inputEvent (n : Fin 48) (s : State) : onlyWrites { evu := true } s (inputEvent n s) := by
  unfold inputEvent
  simp only []
  split <;> rfl

/-- A conditioned change writes axes, gear record, coolant and events alone, in whatever order its consumers act. -/
theorem onlyWrites_conditionedChange (n : Fin 48) (s : State) :
    onlyWrites { axes := true, sgu := true, clu := true, evu := true } s (conditionedChange n s) := by
  unfold conditionedChange
  refine onlyWrites_anyOrder (fun g hg u => ?_) s
  simp only [List.mem_cons, List.not_mem_nil, or_false] at hg
  rcases hg with rfl | rfl | rfl | rfl | rfl | rfl | rfl | rfl
  · exact (onlyWrites_axisInputChange .x n u).mono
  · exact (onlyWrites_axisInputChange .y n u).mono
  · exact (onlyWrites_axisInputChange .z n u).mono
  · exact (onlyWrites_axisInputChange .w n u).mono
  · exact (onlyWrites_axisInputChange .b n u).mono
  · exact (onlyWrites_spindleInputChange n u).mono
  · exact (onlyWrites_coolantInputChange n u).mono
  · exact (onlyWrites_inputEvent n u).mono

theorem onlyWrites_maskOutput (m : OutputMasks) (n : Fin 32) (s : State) :
    onlyWrites { outputs := true, evu := true } s (maskOutput m n s) := by
  unfold maskOutput raiseIf
  simp only []
  repeat' split
  all_goals rfl

theorem onlyWrites_outputFrame (cmd : Option OutputMasks) (s : State) :
    onlyWrites { outputs := true, evu := true } s (outputFrame cmd s) := by
  unfold outputFrame
  split
  · exact onlyWrites_refl _ s
  · exact onlyWrites_foldl (fun u n => onlyWrites_maskOutput _ n u) _ s

/-! ## Drive frames, windows, echoes -/

/-- Every part of a drive frame. -/
theorem onlyWrites_frameParts (sl : Slots) (q : Byte) :
    ∀ g ∈ frameParts sl q, ∀ u,
      onlyWrites { axes := true, sgu := true, clu := true, outputs := true, evu := true } u (g u) := by
  intro g hg u
  simp only [frameParts, List.mem_cons, List.not_mem_nil, or_false] at hg
  rcases hg with rfl | rfl | rfl | rfl | rfl | rfl | rfl | rfl
  · exact (onlyWrites_axisFrame .x _ q u).mono.trans (onlyWrites_ileEval _).mono
  · exact (onlyWrites_axisFrame .y _ q u).mono.trans (onlyWrites_ileEval _).mono
  · exact (onlyWrites_axisFrame .z _ q u).mono.trans (onlyWrites_ileEval _).mono
  · exact (onlyWrites_axisFrame .w _ q u).mono.trans (onlyWrites_ileEval _).mono
  · exact (onlyWrites_axisFrame .b _ q u).mono.trans (onlyWrites_ileEval _).mono
  · exact (onlyWrites_spindleFrame _ u).mono.trans (onlyWrites_ileEval _).mono
  · exact (onlyWrites_coolantFrame _ u).mono.trans (onlyWrites_ileEval _).mono
  · exact (onlyWrites_outputFrame _ u).mono

theorem onlyWrites_frameLeaves (q : Byte) (e : Option EchoStatus) (s : State) :
    onlyWrites { fsw := true, axes := true, pubs := true, svr := true } s (frameLeaves q e s) := by
  unfold frameLeaves
  simp only []
  refine onlyWrites.trans ?_ ((onlyWrites_axisFrameEnd .x _).mono.trans ((onlyWrites_axisFrameEnd .y _).mono.trans
    ((onlyWrites_axisFrameEnd .z _).mono.trans ((onlyWrites_axisFrameEnd .w _).mono.trans
      (onlyWrites_axisFrameEnd .b _).mono))))
  rfl

theorem onlyWrites_sendEcho (q : Byte) (e : EchoStatus) (s : State) :
    onlyWrites { fsw := true, svr := true, evu := true } s (sendEcho q e s) := rfl

theorem onlyWrites_leaveLinkLost (s : State) :
    onlyWrites { fsw := true, axes := true, sgu := true } s (leaveLinkLost s) := rfl

theorem onlyWrites_testRest (s : State) : onlyWrites { fsw := true, axes := true, sgu := true } s (testRest s) := by
  unfold testRest
  repeat' split
  all_goals rfl

theorem onlyWrites_missStation (st : Station) (s : State) :
    onlyWrites { fsw := true, axes := true, sgu := true, evu := true } s (missStation st s) := by
  have report : ∀ u, onlyWrites { fsw := true, axes := true, sgu := true, evu := true } u (reportSilent st u) :=
    fun u => by
      unfold reportSilent
      simp only []
      split
      · exact (onlyWrites_modFsw u _).mono.trans (onlyWrites_raiseAxisFault _ _ _ _).mono
      · exact (onlyWrites_modFsw u _).mono.trans (onlyWrites_raiseSpindleFault _ _ _ _).mono
  unfold missStation
  simp only []
  exact onlyWrites_ite ((onlyWrites_modFsw s _).mono.trans (report _)) (onlyWrites_modFsw s _).mono

/-- The close of a window writes the Frame Switch, stale marks, reports of silence and what leaves with the echo. -/
theorem onlyWrites_closeWindow (s : State) :
    onlyWrites { fsw := true, axes := true, sgu := true, svr := true, evu := true } s (closeWindow s) := by
  unfold closeWindow
  split
  · exact onlyWrites_refl _ s
  · rename_i w _
    simp only []
    refine (onlyWrites_modFsw s _).mono.trans (onlyWrites.trans (onlyWrites_anyOrder (fun g hg u => ?_) _)
      (onlyWrites.trans (t := markStale w.taken (anyOrder ((stations.filter fun st => !w.taken.get st).map missStation)
        (s.modFsw fun f => { f with window := none, windowTimer := none }))) rfl ?_))
    · obtain ⟨st, -, rfl⟩ := List.mem_map.mp hg
      exact (onlyWrites_missStation st u).mono
    · split
      · exact (onlyWrites_sendEcho _ _ _).mono
      · exact onlyWrites_ite (onlyWrites_testRest _).mono (onlyWrites_refl _ _)

/-- A self-paced drive frame. -/
theorem onlyWrites_selfPacedFrame (s : State) :
    onlyWrites { fsw := true, axes := true, pubs := true, sgu := true, clu := true, outputs := true, svr := true,
                 evu := true } s (selfPacedFrame s) := by
  unfold selfPacedFrame
  simp only []
  exact (onlyWrites_anyOrder (fun g hg u => (onlyWrites_frameParts _ _ g hg u).mono) s).trans
    (onlyWrites_frameLeaves _ _ _).mono

end Sys2Proof.Machine
end

