-- ==== Sys2Proof/Laws/State.lean ====
section
/-! SUPPORT. Each field of the state after each update of a block record, and reading back what an update of one axis,
station, circuit or table has set. -/

namespace Sys2Proof

theorem PerAxis.get_set_self {α : Type} (p : PerAxis α) (a : Axis) (v : α) : (p.set a v).get a = v := by
  cases a <;> rfl

theorem PerAxis.get_set_other {α : Type} (p : PerAxis α) (a a' : Axis) (v : α) (h : a' ≠ a) :
    (p.set a v).get a' = p.get a' := by
  cases a <;> cases a' <;> first | rfl | exact absurd rfl h

@[simp] theorem PerAxis.get_all {α : Type} (v : α) (a : Axis) : (PerAxis.all v).get a = v := by cases a <;> rfl

@[simp] theorem PerAxis.get_ofFn {α : Type} (g : Axis → α) (a : Axis) : (PerAxis.ofFn g).get a = g a := by
  cases a <;> rfl

theorem PerAxis.ext_get {α : Type} {p q : PerAxis α} (h : ∀ a, p.get a = q.get a) : p = q := by
  obtain ⟨x, y, z, w, b⟩ := p
  obtain ⟨x', y', z', w', b'⟩ := q
  have h1 : x = x' := h .x
  have h2 : y = y' := h .y
  have h3 : z = z' := h .z
  have h4 : w = w' := h .w
  have h5 : b = b' := h .b
  subst h1; subst h2; subst h3; subst h4; subst h5; rfl

theorem PerStation.get_set_self {α : Type} (p : PerStation α) (st : Station) (v : α) : (p.set st v).get st = v := by
  cases st with
  | axis a => exact PerAxis.get_set_self _ a v
  | spindle => rfl

theorem PerStation.get_set_other {α : Type} (p : PerStation α) (st u : Station) (v : α) (h : u ≠ st) :
    (p.set st v).get u = p.get u := by
  cases st with
  | axis a =>
    cases u with
    | axis a' => exact PerAxis.get_set_other _ a a' v (fun e => h (by rw [e]))
    | spindle => rfl
  | spindle =>
    cases u with
    | axis _ => rfl
    | spindle => exact absurd rfl h

@[simp] theorem PerStation.get_all {α : Type} (v : α) (st : Station) : (PerStation.all v).get st = v := by
  cases st with
  | axis a => cases a <;> rfl
  | spindle => rfl

theorem PerCircuit.get_set_self {α : Type} (p : PerCircuit α) (c : Circuit) (v : α) : (p.set c v).get c = v := by
  cases c <;> rfl

theorem PerCircuit.get_set_other {α : Type} (p : PerCircuit α) (c d : Circuit) (v : α) (h : d ≠ c) :
    (p.set c v).get d = p.get d := by
  cases c <;> cases d <;> first | rfl | exact absurd rfl h

theorem PerTable.get_set_self {α : Type} (p : PerTable α) (id : TableId) (v : α) : (p.set id v).get id = v := by
  cases id <;> first | rfl | exact PerAxis.get_set_self _ _ v

theorem PerTable.get_set_other {α : Type} (p : PerTable α) (id j : TableId) (v : α) (h : j ≠ id) :
    (p.set id v).get j = p.get j := by
  cases id <;> cases j <;>
    first
    | rfl
    | exact absurd rfl h
    | exact PerAxis.get_set_other _ _ _ v (fun e => h (by rw [e]))

end Sys2Proof

namespace Sys2Proof.Machine

@[simp] theorem State.modAxis_pending (s : State) (a : Axis) (g : AxisRec → AxisRec) :
    (s.modAxis a g).pending = s.pending := rfl
@[simp] theorem State.modAxis_now (s : State) (a : Axis) (g : AxisRec → AxisRec) : (s.modAxis a g).now = s.now := rfl
@[simp] theorem State.modAxis_free (s : State) (a : Axis) (g : AxisRec → AxisRec) :
    (s.modAxis a g).free = s.free := rfl
@[simp] theorem State.modAxis_fsw (s : State) (a : Axis) (g : AxisRec → AxisRec) : (s.modAxis a g).fsw = s.fsw := rfl
@[simp] theorem State.modAxis_axes (s : State) (a : Axis) (g : AxisRec → AxisRec) :
    (s.modAxis a g).axes = s.axes.set a (g (s.axes.get a)) := rfl
@[simp] theorem State.modAxis_pubX (s : State) (a : Axis) (g : AxisRec → AxisRec) :
    (s.modAxis a g).pubX = s.pubX := rfl
@[simp] theorem State.modAxis_pubW (s : State) (a : Axis) (g : AxisRec → AxisRec) :
    (s.modAxis a g).pubW = s.pubW := rfl
@[simp] theorem State.modAxis_sgu (s : State) (a : Axis) (g : AxisRec → AxisRec) : (s.modAxis a g).sgu = s.sgu := rfl
@[simp] theorem State.modAxis_clu (s : State) (a : Axis) (g : AxisRec → AxisRec) : (s.modAxis a g).clu = s.clu := rfl
@[simp] theorem State.modAxis_iou (s : State) (a : Axis) (g : AxisRec → AxisRec) : (s.modAxis a g).iou = s.iou := rfl
@[simp] theorem State.modAxis_perms (s : State) (a : Axis) (g : AxisRec → AxisRec) :
    (s.modAxis a g).perms = s.perms := rfl
@[simp] theorem State.modAxis_pdu (s : State) (a : Axis) (g : AxisRec → AxisRec) : (s.modAxis a g).pdu = s.pdu := rfl
@[simp] theorem State.modAxis_svr (s : State) (a : Axis) (g : AxisRec → AxisRec) : (s.modAxis a g).svr = s.svr := rfl
@[simp] theorem State.modAxis_tbm (s : State) (a : Axis) (g : AxisRec → AxisRec) : (s.modAxis a g).tbm = s.tbm := rfl
@[simp] theorem State.modAxis_cfg (s : State) (a : Axis) (g : AxisRec → AxisRec) : (s.modAxis a g).cfg = s.cfg := rfl
@[simp] theorem State.modAxis_evu (s : State) (a : Axis) (g : AxisRec → AxisRec) : (s.modAxis a g).evu = s.evu := rfl

@[simp] theorem State.modAxes_pending (s : State) (g : AxisRec → AxisRec) : (s.modAxes g).pending = s.pending := rfl
@[simp] theorem State.modAxes_now (s : State) (g : AxisRec → AxisRec) : (s.modAxes g).now = s.now := rfl
@[simp] theorem State.modAxes_free (s : State) (g : AxisRec → AxisRec) : (s.modAxes g).free = s.free := rfl
@[simp] theorem State.modAxes_fsw (s : State) (g : AxisRec → AxisRec) : (s.modAxes g).fsw = s.fsw := rfl
@[simp] theorem State.modAxes_axes (s : State) (g : AxisRec → AxisRec) :
    (s.modAxes g).axes = ⟨g s.axes.x, g s.axes.y, g s.axes.z, g s.axes.w, g s.axes.b⟩ := rfl
@[simp] theorem State.modAxes_pubX (s : State) (g : AxisRec → AxisRec) : (s.modAxes g).pubX = s.pubX := rfl
@[simp] theorem State.modAxes_pubW (s : State) (g : AxisRec → AxisRec) : (s.modAxes g).pubW = s.pubW := rfl
@[simp] theorem State.modAxes_sgu (s : State) (g : AxisRec → AxisRec) : (s.modAxes g).sgu = s.sgu := rfl
@[simp] theorem State.modAxes_clu (s : State) (g : AxisRec → AxisRec) : (s.modAxes g).clu = s.clu := rfl
@[simp] theorem State.modAxes_iou (s : State) (g : AxisRec → AxisRec) : (s.modAxes g).iou = s.iou := rfl
@[simp] theorem State.modAxes_perms (s : State) (g : AxisRec → AxisRec) : (s.modAxes g).perms = s.perms := rfl
@[simp] theorem State.modAxes_pdu (s : State) (g : AxisRec → AxisRec) : (s.modAxes g).pdu = s.pdu := rfl
@[simp] theorem State.modAxes_svr (s : State) (g : AxisRec → AxisRec) : (s.modAxes g).svr = s.svr := rfl
@[simp] theorem State.modAxes_tbm (s : State) (g : AxisRec → AxisRec) : (s.modAxes g).tbm = s.tbm := rfl
@[simp] theorem State.modAxes_cfg (s : State) (g : AxisRec → AxisRec) : (s.modAxes g).cfg = s.cfg := rfl
@[simp] theorem State.modAxes_evu (s : State) (g : AxisRec → AxisRec) : (s.modAxes g).evu = s.evu := rfl

@[simp] theorem State.modHolds_pending (s : State) (a : Axis) (g : Holds → Holds) :
    (s.modHolds a g).pending = s.pending := rfl
@[simp] theorem State.modHolds_now (s : State) (a : Axis) (g : Holds → Holds) : (s.modHolds a g).now = s.now := rfl
@[simp] theorem State.modHolds_free (s : State) (a : Axis) (g : Holds → Holds) : (s.modHolds a g).free = s.free := rfl
@[simp] theorem State.modHolds_fsw (s : State) (a : Axis) (g : Holds → Holds) : (s.modHolds a g).fsw = s.fsw := rfl
@[simp] theorem State.modHolds_axes (s : State) (a : Axis) (g : Holds → Holds) :
    (s.modHolds a g).axes = s.axes.set a { s.axes.get a with holds := g (s.axes.get a).holds } := rfl
@[simp] theorem State.modHolds_pubX (s : State) (a : Axis) (g : Holds → Holds) : (s.modHolds a g).pubX = s.pubX := rfl
@[simp] theorem State.modHolds_pubW (s : State) (a : Axis) (g : Holds → Holds) : (s.modHolds a g).pubW = s.pubW := rfl
@[simp] theorem State.modHolds_sgu (s : State) (a : Axis) (g : Holds → Holds) : (s.modHolds a g).sgu = s.sgu := rfl
@[simp] theorem State.modHolds_clu (s : State) (a : Axis) (g : Holds → Holds) : (s.modHolds a g).clu = s.clu := rfl
@[simp] theorem State.modHolds_iou (s : State) (a : Axis) (g : Holds → Holds) : (s.modHolds a g).iou = s.iou := rfl
@[simp] theorem State.modHolds_perms (s : State) (a : Axis) (g : Holds → Holds) :
    (s.modHolds a g).perms = s.perms := rfl
@[simp] theorem State.modHolds_pdu (s : State) (a : Axis) (g : Holds → Holds) : (s.modHolds a g).pdu = s.pdu := rfl
@[simp] theorem State.modHolds_svr (s : State) (a : Axis) (g : Holds → Holds) : (s.modHolds a g).svr = s.svr := rfl
@[simp] theorem State.modHolds_tbm (s : State) (a : Axis) (g : Holds → Holds) : (s.modHolds a g).tbm = s.tbm := rfl
@[simp] theorem State.modHolds_cfg (s : State) (a : Axis) (g : Holds → Holds) : (s.modHolds a g).cfg = s.cfg := rfl
@[simp] theorem State.modHolds_evu (s : State) (a : Axis) (g : Holds → Holds) : (s.modHolds a g).evu = s.evu := rfl

@[simp] theorem State.modSgu_pending (s : State) (g : Sgu → Sgu) : (s.modSgu g).pending = s.pending := rfl
@[simp] theorem State.modSgu_now (s : State) (g : Sgu → Sgu) : (s.modSgu g).now = s.now := rfl
@[simp] theorem State.modSgu_free (s : State) (g : Sgu → Sgu) : (s.modSgu g).free = s.free := rfl
@[simp] theorem State.modSgu_fsw (s : State) (g : Sgu → Sgu) : (s.modSgu g).fsw = s.fsw := rfl
@[simp] theorem State.modSgu_axes (s : State) (g : Sgu → Sgu) : (s.modSgu g).axes = s.axes := rfl
@[simp] theorem State.modSgu_pubX (s : State) (g : Sgu → Sgu) : (s.modSgu g).pubX = s.pubX := rfl
@[simp] theorem State.modSgu_pubW (s : State) (g : Sgu → Sgu) : (s.modSgu g).pubW = s.pubW := rfl
@[simp] theorem State.modSgu_sgu (s : State) (g : Sgu → Sgu) : (s.modSgu g).sgu = g s.sgu := rfl
@[simp] theorem State.modSgu_clu (s : State) (g : Sgu → Sgu) : (s.modSgu g).clu = s.clu := rfl
@[simp] theorem State.modSgu_iou (s : State) (g : Sgu → Sgu) : (s.modSgu g).iou = s.iou := rfl
@[simp] theorem State.modSgu_perms (s : State) (g : Sgu → Sgu) : (s.modSgu g).perms = s.perms := rfl
@[simp] theorem State.modSgu_pdu (s : State) (g : Sgu → Sgu) : (s.modSgu g).pdu = s.pdu := rfl
@[simp] theorem State.modSgu_svr (s : State) (g : Sgu → Sgu) : (s.modSgu g).svr = s.svr := rfl
@[simp] theorem State.modSgu_tbm (s : State) (g : Sgu → Sgu) : (s.modSgu g).tbm = s.tbm := rfl
@[simp] theorem State.modSgu_cfg (s : State) (g : Sgu → Sgu) : (s.modSgu g).cfg = s.cfg := rfl
@[simp] theorem State.modSgu_evu (s : State) (g : Sgu → Sgu) : (s.modSgu g).evu = s.evu := rfl

@[simp] theorem State.modClu_pending (s : State) (g : Clu → Clu) : (s.modClu g).pending = s.pending := rfl
@[simp] theorem State.modClu_now (s : State) (g : Clu → Clu) : (s.modClu g).now = s.now := rfl
@[simp] theorem State.modClu_free (s : State) (g : Clu → Clu) : (s.modClu g).free = s.free := rfl
@[simp] theorem State.modClu_fsw (s : State) (g : Clu → Clu) : (s.modClu g).fsw = s.fsw := rfl
@[simp] theorem State.modClu_axes (s : State) (g : Clu → Clu) : (s.modClu g).axes = s.axes := rfl
@[simp] theorem State.modClu_pubX (s : State) (g : Clu → Clu) : (s.modClu g).pubX = s.pubX := rfl
@[simp] theorem State.modClu_pubW (s : State) (g : Clu → Clu) : (s.modClu g).pubW = s.pubW := rfl
@[simp] theorem State.modClu_sgu (s : State) (g : Clu → Clu) : (s.modClu g).sgu = s.sgu := rfl
@[simp] theorem State.modClu_clu (s : State) (g : Clu → Clu) : (s.modClu g).clu = g s.clu := rfl
@[simp] theorem State.modClu_iou (s : State) (g : Clu → Clu) : (s.modClu g).iou = s.iou := rfl
@[simp] theorem State.modClu_perms (s : State) (g : Clu → Clu) : (s.modClu g).perms = s.perms := rfl
@[simp] theorem State.modClu_pdu (s : State) (g : Clu → Clu) : (s.modClu g).pdu = s.pdu := rfl
@[simp] theorem State.modClu_svr (s : State) (g : Clu → Clu) : (s.modClu g).svr = s.svr := rfl
@[simp] theorem State.modClu_tbm (s : State) (g : Clu → Clu) : (s.modClu g).tbm = s.tbm := rfl
@[simp] theorem State.modClu_cfg (s : State) (g : Clu → Clu) : (s.modClu g).cfg = s.cfg := rfl
@[simp] theorem State.modClu_evu (s : State) (g : Clu → Clu) : (s.modClu g).evu = s.evu := rfl

@[simp] theorem State.modCircuit_pending (s : State) (c : Circuit) (g : CircuitRec → CircuitRec) :
    (s.modCircuit c g).pending = s.pending := rfl
@[simp] theorem State.modCircuit_now (s : State) (c : Circuit) (g : CircuitRec → CircuitRec) :
    (s.modCircuit c g).now = s.now := rfl
@[simp] theorem State.modCircuit_free (s : State) (c : Circuit) (g : CircuitRec → CircuitRec) :
    (s.modCircuit c g).free = s.free := rfl
@[simp] theorem State.modCircuit_fsw (s : State) (c : Circuit) (g : CircuitRec → CircuitRec) :
    (s.modCircuit c g).fsw = s.fsw := rfl
@[simp] theorem State.modCircuit_axes (s : State) (c : Circuit) (g : CircuitRec → CircuitRec) :
    (s.modCircuit c g).axes = s.axes := rfl
@[simp] theorem State.modCircuit_pubX (s : State) (c : Circuit) (g : CircuitRec → CircuitRec) :
    (s.modCircuit c g).pubX = s.pubX := rfl
@[simp] theorem State.modCircuit_pubW (s : State) (c : Circuit) (g : CircuitRec → CircuitRec) :
    (s.modCircuit c g).pubW = s.pubW := rfl
@[simp] theorem State.modCircuit_sgu (s : State) (c : Circuit) (g : CircuitRec → CircuitRec) :
    (s.modCircuit c g).sgu = s.sgu := rfl
@[simp] theorem State.modCircuit_clu (s : State) (c : Circuit) (g : CircuitRec → CircuitRec) :
    (s.modCircuit c g).clu = { s.clu with circuit := s.clu.circuit.set c (g (s.clu.circuit.get c)) } := rfl
@[simp] theorem State.modCircuit_iou (s : State) (c : Circuit) (g : CircuitRec → CircuitRec) :
    (s.modCircuit c g).iou = s.iou := rfl
@[simp] theorem State.modCircuit_perms (s : State) (c : Circuit) (g : CircuitRec → CircuitRec) :
    (s.modCircuit c g).perms = s.perms := rfl
@[simp] theorem State.modCircuit_pdu (s : State) (c : Circuit) (g : CircuitRec → CircuitRec) :
    (s.modCircuit c g).pdu = s.pdu := rfl
@[simp] theorem State.modCircuit_svr (s : State) (c : Circuit) (g : CircuitRec → CircuitRec) :
    (s.modCircuit c g).svr = s.svr := rfl
@[simp] theorem State.modCircuit_tbm (s : State) (c : Circuit) (g : CircuitRec → CircuitRec) :
    (s.modCircuit c g).tbm = s.tbm := rfl
@[simp] theorem State.modCircuit_cfg (s : State) (c : Circuit) (g : CircuitRec → CircuitRec) :
    (s.modCircuit c g).cfg = s.cfg := rfl
@[simp] theorem State.modCircuit_evu (s : State) (c : Circuit) (g : CircuitRec → CircuitRec) :
    (s.modCircuit c g).evu = s.evu := rfl

@[simp] theorem State.modPdu_pending (s : State) (g : Pdu → Pdu) : (s.modPdu g).pending = s.pending := rfl
@[simp] theorem State.modPdu_now (s : State) (g : Pdu → Pdu) : (s.modPdu g).now = s.now := rfl
@[simp] theorem State.modPdu_free (s : State) (g : Pdu → Pdu) : (s.modPdu g).free = s.free := rfl
@[simp] theorem State.modPdu_fsw (s : State) (g : Pdu → Pdu) : (s.modPdu g).fsw = s.fsw := rfl
@[simp] theorem State.modPdu_axes (s : State) (g : Pdu → Pdu) : (s.modPdu g).axes = s.axes := rfl
@[simp] theorem State.modPdu_pubX (s : State) (g : Pdu → Pdu) : (s.modPdu g).pubX = s.pubX := rfl
@[simp] theorem State.modPdu_pubW (s : State) (g : Pdu → Pdu) : (s.modPdu g).pubW = s.pubW := rfl
@[simp] theorem State.modPdu_sgu (s : State) (g : Pdu → Pdu) : (s.modPdu g).sgu = s.sgu := rfl
@[simp] theorem State.modPdu_clu (s : State) (g : Pdu → Pdu) : (s.modPdu g).clu = s.clu := rfl
@[simp] theorem State.modPdu_iou (s : State) (g : Pdu → Pdu) : (s.modPdu g).iou = s.iou := rfl
@[simp] theorem State.modPdu_perms (s : State) (g : Pdu → Pdu) : (s.modPdu g).perms = s.perms := rfl
@[simp] theorem State.modPdu_pdu (s : State) (g : Pdu → Pdu) : (s.modPdu g).pdu = g s.pdu := rfl
@[simp] theorem State.modPdu_svr (s : State) (g : Pdu → Pdu) : (s.modPdu g).svr = s.svr := rfl
@[simp] theorem State.modPdu_tbm (s : State) (g : Pdu → Pdu) : (s.modPdu g).tbm = s.tbm := rfl
@[simp] theorem State.modPdu_cfg (s : State) (g : Pdu → Pdu) : (s.modPdu g).cfg = s.cfg := rfl
@[simp] theorem State.modPdu_evu (s : State) (g : Pdu → Pdu) : (s.modPdu g).evu = s.evu := rfl

@[simp] theorem State.modMail_pending (s : State) (g : Mailbox → Mailbox) : (s.modMail g).pending = s.pending := rfl
@[simp] theorem State.modMail_now (s : State) (g : Mailbox → Mailbox) : (s.modMail g).now = s.now := rfl
@[simp] theorem State.modMail_free (s : State) (g : Mailbox → Mailbox) : (s.modMail g).free = s.free := rfl
@[simp] theorem State.modMail_fsw (s : State) (g : Mailbox → Mailbox) : (s.modMail g).fsw = s.fsw := rfl
@[simp] theorem State.modMail_axes (s : State) (g : Mailbox → Mailbox) : (s.modMail g).axes = s.axes := rfl
@[simp] theorem State.modMail_pubX (s : State) (g : Mailbox → Mailbox) : (s.modMail g).pubX = s.pubX := rfl
@[simp] theorem State.modMail_pubW (s : State) (g : Mailbox → Mailbox) : (s.modMail g).pubW = s.pubW := rfl
@[simp] theorem State.modMail_sgu (s : State) (g : Mailbox → Mailbox) : (s.modMail g).sgu = s.sgu := rfl
@[simp] theorem State.modMail_clu (s : State) (g : Mailbox → Mailbox) : (s.modMail g).clu = s.clu := rfl
@[simp] theorem State.modMail_iou (s : State) (g : Mailbox → Mailbox) : (s.modMail g).iou = s.iou := rfl
@[simp] theorem State.modMail_perms (s : State) (g : Mailbox → Mailbox) : (s.modMail g).perms = s.perms := rfl
@[simp] theorem State.modMail_pdu (s : State) (g : Mailbox → Mailbox) :
    (s.modMail g).pdu = { s.pdu with mailbox := g s.pdu.mailbox } := rfl
@[simp] theorem State.modMail_svr (s : State) (g : Mailbox → Mailbox) : (s.modMail g).svr = s.svr := rfl
@[simp] theorem State.modMail_tbm (s : State) (g : Mailbox → Mailbox) : (s.modMail g).tbm = s.tbm := rfl
@[simp] theorem State.modMail_cfg (s : State) (g : Mailbox → Mailbox) : (s.modMail g).cfg = s.cfg := rfl
@[simp] theorem State.modMail_evu (s : State) (g : Mailbox → Mailbox) : (s.modMail g).evu = s.evu := rfl

@[simp] theorem State.modSvr_pending (s : State) (g : Svr → Svr) : (s.modSvr g).pending = s.pending := rfl
@[simp] theorem State.modSvr_now (s : State) (g : Svr → Svr) : (s.modSvr g).now = s.now := rfl
@[simp] theorem State.modSvr_free (s : State) (g : Svr → Svr) : (s.modSvr g).free = s.free := rfl
@[simp] theorem State.modSvr_fsw (s : State) (g : Svr → Svr) : (s.modSvr g).fsw = s.fsw := rfl
@[simp] theorem State.modSvr_axes (s : State) (g : Svr → Svr) : (s.modSvr g).axes = s.axes := rfl
@[simp] theorem State.modSvr_pubX (s : State) (g : Svr → Svr) : (s.modSvr g).pubX = s.pubX := rfl
@[simp] theorem State.modSvr_pubW (s : State) (g : Svr → Svr) : (s.modSvr g).pubW = s.pubW := rfl
@[simp] theorem State.modSvr_sgu (s : State) (g : Svr → Svr) : (s.modSvr g).sgu = s.sgu := rfl
@[simp] theorem State.modSvr_clu (s : State) (g : Svr → Svr) : (s.modSvr g).clu = s.clu := rfl
@[simp] theorem State.modSvr_iou (s : State) (g : Svr → Svr) : (s.modSvr g).iou = s.iou := rfl
@[simp] theorem State.modSvr_perms (s : State) (g : Svr → Svr) : (s.modSvr g).perms = s.perms := rfl
@[simp] theorem State.modSvr_pdu (s : State) (g : Svr → Svr) : (s.modSvr g).pdu = s.pdu := rfl
@[simp] theorem State.modSvr_svr (s : State) (g : Svr → Svr) : (s.modSvr g).svr = g s.svr := rfl
@[simp] theorem State.modSvr_tbm (s : State) (g : Svr → Svr) : (s.modSvr g).tbm = s.tbm := rfl
@[simp] theorem State.modSvr_cfg (s : State) (g : Svr → Svr) : (s.modSvr g).cfg = s.cfg := rfl
@[simp] theorem State.modSvr_evu (s : State) (g : Svr → Svr) : (s.modSvr g).evu = s.evu := rfl

@[simp] theorem State.modPass_pending (s : State) (st : Station) (g : PassRec → PassRec) :
    (s.modPass st g).pending = s.pending := rfl
@[simp] theorem State.modPass_now (s : State) (st : Station) (g : PassRec → PassRec) :
    (s.modPass st g).now = s.now := rfl
@[simp] theorem State.modPass_free (s : State) (st : Station) (g : PassRec → PassRec) :
    (s.modPass st g).free = s.free := rfl
@[simp] theorem State.modPass_fsw (s : State) (st : Station) (g : PassRec → PassRec) :
    (s.modPass st g).fsw = s.fsw := rfl
@[simp] theorem State.modPass_axes (s : State) (st : Station) (g : PassRec → PassRec) :
    (s.modPass st g).axes = s.axes := rfl
@[simp] theorem State.modPass_pubX (s : State) (st : Station) (g : PassRec → PassRec) :
    (s.modPass st g).pubX = s.pubX := rfl
@[simp] theorem State.modPass_pubW (s : State) (st : Station) (g : PassRec → PassRec) :
    (s.modPass st g).pubW = s.pubW := rfl
@[simp] theorem State.modPass_sgu (s : State) (st : Station) (g : PassRec → PassRec) :
    (s.modPass st g).sgu = s.sgu := rfl
@[simp] theorem State.modPass_clu (s : State) (st : Station) (g : PassRec → PassRec) :
    (s.modPass st g).clu = s.clu := rfl
@[simp] theorem State.modPass_iou (s : State) (st : Station) (g : PassRec → PassRec) :
    (s.modPass st g).iou = s.iou := rfl
@[simp] theorem State.modPass_perms (s : State) (st : Station) (g : PassRec → PassRec) :
    (s.modPass st g).perms = s.perms := rfl
@[simp] theorem State.modPass_pdu (s : State) (st : Station) (g : PassRec → PassRec) :
    (s.modPass st g).pdu = s.pdu := rfl
@[simp] theorem State.modPass_svr (s : State) (st : Station) (g : PassRec → PassRec) :
    (s.modPass st g).svr = { s.svr with pass := s.svr.pass.set st (g (s.svr.pass.get st)) } := rfl
@[simp] theorem State.modPass_tbm (s : State) (st : Station) (g : PassRec → PassRec) :
    (s.modPass st g).tbm = s.tbm := rfl
@[simp] theorem State.modPass_cfg (s : State) (st : Station) (g : PassRec → PassRec) :
    (s.modPass st g).cfg = s.cfg := rfl
@[simp] theorem State.modPass_evu (s : State) (st : Station) (g : PassRec → PassRec) :
    (s.modPass st g).evu = s.evu := rfl

@[simp] theorem State.modTbm_pending (s : State) (g : Tbm → Tbm) : (s.modTbm g).pending = s.pending := rfl
@[simp] theorem State.modTbm_now (s : State) (g : Tbm → Tbm) : (s.modTbm g).now = s.now := rfl
@[simp] theorem State.modTbm_free (s : State) (g : Tbm → Tbm) : (s.modTbm g).free = s.free := rfl
@[simp] theorem State.modTbm_fsw (s : State) (g : Tbm → Tbm) : (s.modTbm g).fsw = s.fsw := rfl
@[simp] theorem State.modTbm_axes (s : State) (g : Tbm → Tbm) : (s.modTbm g).axes = s.axes := rfl
@[simp] theorem State.modTbm_pubX (s : State) (g : Tbm → Tbm) : (s.modTbm g).pubX = s.pubX := rfl
@[simp] theorem State.modTbm_pubW (s : State) (g : Tbm → Tbm) : (s.modTbm g).pubW = s.pubW := rfl
@[simp] theorem State.modTbm_sgu (s : State) (g : Tbm → Tbm) : (s.modTbm g).sgu = s.sgu := rfl
@[simp] theorem State.modTbm_clu (s : State) (g : Tbm → Tbm) : (s.modTbm g).clu = s.clu := rfl
@[simp] theorem State.modTbm_iou (s : State) (g : Tbm → Tbm) : (s.modTbm g).iou = s.iou := rfl
@[simp] theorem State.modTbm_perms (s : State) (g : Tbm → Tbm) : (s.modTbm g).perms = s.perms := rfl
@[simp] theorem State.modTbm_pdu (s : State) (g : Tbm → Tbm) : (s.modTbm g).pdu = s.pdu := rfl
@[simp] theorem State.modTbm_svr (s : State) (g : Tbm → Tbm) : (s.modTbm g).svr = s.svr := rfl
@[simp] theorem State.modTbm_tbm (s : State) (g : Tbm → Tbm) : (s.modTbm g).tbm = g s.tbm := rfl
@[simp] theorem State.modTbm_cfg (s : State) (g : Tbm → Tbm) : (s.modTbm g).cfg = s.cfg := rfl
@[simp] theorem State.modTbm_evu (s : State) (g : Tbm → Tbm) : (s.modTbm g).evu = s.evu := rfl

@[simp] theorem State.modEntry_pending (s : State) (id : TableId) (g : CatEntry → CatEntry) :
    (s.modEntry id g).pending = s.pending := rfl
@[simp] theorem State.modEntry_now (s : State) (id : TableId) (g : CatEntry → CatEntry) :
    (s.modEntry id g).now = s.now := rfl
@[simp] theorem State.modEntry_free (s : State) (id : TableId) (g : CatEntry → CatEntry) :
    (s.modEntry id g).free = s.free := rfl
@[simp] theorem State.modEntry_fsw (s : State) (id : TableId) (g : CatEntry → CatEntry) :
    (s.modEntry id g).fsw = s.fsw := rfl
@[simp] theorem State.modEntry_axes (s : State) (id : TableId) (g : CatEntry → CatEntry) :
    (s.modEntry id g).axes = s.axes := rfl
@[simp] theorem State.modEntry_pubX (s : State) (id : TableId) (g : CatEntry → CatEntry) :
    (s.modEntry id g).pubX = s.pubX := rfl
@[simp] theorem State.modEntry_pubW (s : State) (id : TableId) (g : CatEntry → CatEntry) :
    (s.modEntry id g).pubW = s.pubW := rfl
@[simp] theorem State.modEntry_sgu (s : State) (id : TableId) (g : CatEntry → CatEntry) :
    (s.modEntry id g).sgu = s.sgu := rfl
@[simp] theorem State.modEntry_clu (s : State) (id : TableId) (g : CatEntry → CatEntry) :
    (s.modEntry id g).clu = s.clu := rfl
@[simp] theorem State.modEntry_iou (s : State) (id : TableId) (g : CatEntry → CatEntry) :
    (s.modEntry id g).iou = s.iou := rfl
@[simp] theorem State.modEntry_perms (s : State) (id : TableId) (g : CatEntry → CatEntry) :
    (s.modEntry id g).perms = s.perms := rfl
@[simp] theorem State.modEntry_pdu (s : State) (id : TableId) (g : CatEntry → CatEntry) :
    (s.modEntry id g).pdu = s.pdu := rfl
@[simp] theorem State.modEntry_svr (s : State) (id : TableId) (g : CatEntry → CatEntry) :
    (s.modEntry id g).svr = s.svr := rfl
@[simp] theorem State.modEntry_tbm (s : State) (id : TableId) (g : CatEntry → CatEntry) :
    (s.modEntry id g).tbm = { s.tbm with cat := s.tbm.cat.set id (g (s.tbm.cat.get id)) } := rfl
@[simp] theorem State.modEntry_cfg (s : State) (id : TableId) (g : CatEntry → CatEntry) :
    (s.modEntry id g).cfg = s.cfg := rfl
@[simp] theorem State.modEntry_evu (s : State) (id : TableId) (g : CatEntry → CatEntry) :
    (s.modEntry id g).evu = s.evu := rfl

@[simp] theorem setStaging_pending (s : State) (g : Staging) : (setStaging g s).pending = s.pending := rfl
@[simp] theorem setStaging_now (s : State) (g : Staging) : (setStaging g s).now = s.now := rfl
@[simp] theorem setStaging_free (s : State) (g : Staging) : (setStaging g s).free = s.free := rfl
@[simp] theorem setStaging_fsw (s : State) (g : Staging) : (setStaging g s).fsw = s.fsw := rfl
@[simp] theorem setStaging_axes (s : State) (g : Staging) : (setStaging g s).axes = s.axes := rfl
@[simp] theorem setStaging_pubX (s : State) (g : Staging) : (setStaging g s).pubX = s.pubX := rfl
@[simp] theorem setStaging_pubW (s : State) (g : Staging) : (setStaging g s).pubW = s.pubW := rfl
@[simp] theorem setStaging_sgu (s : State) (g : Staging) : (setStaging g s).sgu = s.sgu := rfl
@[simp] theorem setStaging_clu (s : State) (g : Staging) : (setStaging g s).clu = s.clu := rfl
@[simp] theorem setStaging_iou (s : State) (g : Staging) : (setStaging g s).iou = s.iou := rfl
@[simp] theorem setStaging_perms (s : State) (g : Staging) : (setStaging g s).perms = s.perms := rfl
@[simp] theorem setStaging_pdu (s : State) (g : Staging) : (setStaging g s).pdu = s.pdu := rfl
@[simp] theorem setStaging_svr (s : State) (g : Staging) : (setStaging g s).svr = s.svr := rfl
@[simp] theorem setStaging_tbm (s : State) (g : Staging) : (setStaging g s).tbm = { s.tbm with staging := g } := rfl
@[simp] theorem setStaging_cfg (s : State) (g : Staging) : (setStaging g s).cfg = s.cfg := rfl
@[simp] theorem setStaging_evu (s : State) (g : Staging) : (setStaging g s).evu = s.evu := rfl

@[simp] theorem setJob_pending (s : State) (j : Option Job) : (setJob j s).pending = s.pending := rfl
@[simp] theorem setJob_now (s : State) (j : Option Job) : (setJob j s).now = s.now := rfl
@[simp] theorem setJob_free (s : State) (j : Option Job) : (setJob j s).free = s.free := rfl
@[simp] theorem setJob_fsw (s : State) (j : Option Job) : (setJob j s).fsw = s.fsw := rfl
@[simp] theorem setJob_axes (s : State) (j : Option Job) : (setJob j s).axes = s.axes := rfl
@[simp] theorem setJob_pubX (s : State) (j : Option Job) : (setJob j s).pubX = s.pubX := rfl
@[simp] theorem setJob_pubW (s : State) (j : Option Job) : (setJob j s).pubW = s.pubW := rfl
@[simp] theorem setJob_sgu (s : State) (j : Option Job) : (setJob j s).sgu = s.sgu := rfl
@[simp] theorem setJob_clu (s : State) (j : Option Job) : (setJob j s).clu = s.clu := rfl
@[simp] theorem setJob_iou (s : State) (j : Option Job) : (setJob j s).iou = s.iou := rfl
@[simp] theorem setJob_perms (s : State) (j : Option Job) : (setJob j s).perms = s.perms := rfl
@[simp] theorem setJob_pdu (s : State) (j : Option Job) : (setJob j s).pdu = s.pdu := rfl
@[simp] theorem setJob_svr (s : State) (j : Option Job) : (setJob j s).svr = s.svr := rfl
@[simp] theorem setJob_tbm (s : State) (j : Option Job) : (setJob j s).tbm = { s.tbm with job := j } := rfl
@[simp] theorem setJob_cfg (s : State) (j : Option Job) : (setJob j s).cfg = s.cfg := rfl
@[simp] theorem setJob_evu (s : State) (j : Option Job) : (setJob j s).evu = s.evu := rfl

@[simp] theorem setStore_pending (s : State) (m : List Host.Cell) : (setStore m s).pending = s.pending := rfl
@[simp] theorem setStore_now (s : State) (m : List Host.Cell) : (setStore m s).now = s.now := rfl
@[simp] theorem setStore_free (s : State) (m : List Host.Cell) : (setStore m s).free = s.free := rfl
@[simp] theorem setStore_fsw (s : State) (m : List Host.Cell) : (setStore m s).fsw = s.fsw := rfl
@[simp] theorem setStore_axes (s : State) (m : List Host.Cell) : (setStore m s).axes = s.axes := rfl
@[simp] theorem setStore_pubX (s : State) (m : List Host.Cell) : (setStore m s).pubX = s.pubX := rfl
@[simp] theorem setStore_pubW (s : State) (m : List Host.Cell) : (setStore m s).pubW = s.pubW := rfl
@[simp] theorem setStore_sgu (s : State) (m : List Host.Cell) : (setStore m s).sgu = s.sgu := rfl
@[simp] theorem setStore_clu (s : State) (m : List Host.Cell) : (setStore m s).clu = s.clu := rfl
@[simp] theorem setStore_iou (s : State) (m : List Host.Cell) : (setStore m s).iou = s.iou := rfl
@[simp] theorem setStore_perms (s : State) (m : List Host.Cell) : (setStore m s).perms = s.perms := rfl
@[simp] theorem setStore_pdu (s : State) (m : List Host.Cell) : (setStore m s).pdu = s.pdu := rfl
@[simp] theorem setStore_svr (s : State) (m : List Host.Cell) : (setStore m s).svr = s.svr := rfl
@[simp] theorem setStore_tbm (s : State) (m : List Host.Cell) : (setStore m s).tbm = { s.tbm with store := m } := rfl
@[simp] theorem setStore_cfg (s : State) (m : List Host.Cell) : (setStore m s).cfg = s.cfg := rfl
@[simp] theorem setStore_evu (s : State) (m : List Host.Cell) : (setStore m s).evu = s.evu := rfl

@[simp] theorem State.modFsw_pending (s : State) (g : Fsw → Fsw) : (s.modFsw g).pending = s.pending := rfl
@[simp] theorem State.modFsw_now (s : State) (g : Fsw → Fsw) : (s.modFsw g).now = s.now := rfl
@[simp] theorem State.modFsw_free (s : State) (g : Fsw → Fsw) : (s.modFsw g).free = s.free := rfl
@[simp] theorem State.modFsw_fsw (s : State) (g : Fsw → Fsw) : (s.modFsw g).fsw = g s.fsw := rfl
@[simp] theorem State.modFsw_axes (s : State) (g : Fsw → Fsw) : (s.modFsw g).axes = s.axes := rfl
@[simp] theorem State.modFsw_pubX (s : State) (g : Fsw → Fsw) : (s.modFsw g).pubX = s.pubX := rfl
@[simp] theorem State.modFsw_pubW (s : State) (g : Fsw → Fsw) : (s.modFsw g).pubW = s.pubW := rfl
@[simp] theorem State.modFsw_sgu (s : State) (g : Fsw → Fsw) : (s.modFsw g).sgu = s.sgu := rfl
@[simp] theorem State.modFsw_clu (s : State) (g : Fsw → Fsw) : (s.modFsw g).clu = s.clu := rfl
@[simp] theorem State.modFsw_iou (s : State) (g : Fsw → Fsw) : (s.modFsw g).iou = s.iou := rfl
@[simp] theorem State.modFsw_perms (s : State) (g : Fsw → Fsw) : (s.modFsw g).perms = s.perms := rfl
@[simp] theorem State.modFsw_pdu (s : State) (g : Fsw → Fsw) : (s.modFsw g).pdu = s.pdu := rfl
@[simp] theorem State.modFsw_svr (s : State) (g : Fsw → Fsw) : (s.modFsw g).svr = s.svr := rfl
@[simp] theorem State.modFsw_tbm (s : State) (g : Fsw → Fsw) : (s.modFsw g).tbm = s.tbm := rfl
@[simp] theorem State.modFsw_cfg (s : State) (g : Fsw → Fsw) : (s.modFsw g).cfg = s.cfg := rfl
@[simp] theorem State.modFsw_evu (s : State) (g : Fsw → Fsw) : (s.modFsw g).evu = s.evu := rfl

@[simp] theorem State.modCounters_pending (s : State) (g : Counters → Counters) :
    (s.modCounters g).pending = s.pending := rfl
@[simp] theorem State.modCounters_now (s : State) (g : Counters → Counters) : (s.modCounters g).now = s.now := rfl
@[simp] theorem State.modCounters_free (s : State) (g : Counters → Counters) : (s.modCounters g).free = s.free := rfl
@[simp] theorem State.modCounters_fsw (s : State) (g : Counters → Counters) :
    (s.modCounters g).fsw = { s.fsw with counters := g s.fsw.counters } := rfl
@[simp] theorem State.modCounters_axes (s : State) (g : Counters → Counters) : (s.modCounters g).axes = s.axes := rfl
@[simp] theorem State.modCounters_pubX (s : State) (g : Counters → Counters) : (s.modCounters g).pubX = s.pubX := rfl
@[simp] theorem State.modCounters_pubW (s : State) (g : Counters → Counters) : (s.modCounters g).pubW = s.pubW := rfl
@[simp] theorem State.modCounters_sgu (s : State) (g : Counters → Counters) : (s.modCounters g).sgu = s.sgu := rfl
@[simp] theorem State.modCounters_clu (s : State) (g : Counters → Counters) : (s.modCounters g).clu = s.clu := rfl
@[simp] theorem State.modCounters_iou (s : State) (g : Counters → Counters) : (s.modCounters g).iou = s.iou := rfl
@[simp] theorem State.modCounters_perms (s : State) (g : Counters → Counters) :
    (s.modCounters g).perms = s.perms := rfl
@[simp] theorem State.modCounters_pdu (s : State) (g : Counters → Counters) : (s.modCounters g).pdu = s.pdu := rfl
@[simp] theorem State.modCounters_svr (s : State) (g : Counters → Counters) : (s.modCounters g).svr = s.svr := rfl
@[simp] theorem State.modCounters_tbm (s : State) (g : Counters → Counters) : (s.modCounters g).tbm = s.tbm := rfl
@[simp] theorem State.modCounters_cfg (s : State) (g : Counters → Counters) : (s.modCounters g).cfg = s.cfg := rfl
@[simp] theorem State.modCounters_evu (s : State) (g : Counters → Counters) : (s.modCounters g).evu = s.evu := rfl

@[simp] theorem State.modStation_pending (s : State) (st : Station) (g : StationRec → StationRec) :
    (s.modStation st g).pending = s.pending := rfl
@[simp] theorem State.modStation_now (s : State) (st : Station) (g : StationRec → StationRec) :
    (s.modStation st g).now = s.now := rfl
@[simp] theorem State.modStation_free (s : State) (st : Station) (g : StationRec → StationRec) :
    (s.modStation st g).free = s.free := rfl
@[simp] theorem State.modStation_fsw (s : State) (st : Station) (g : StationRec → StationRec) :
    (s.modStation st g).fsw = { s.fsw with stations := s.fsw.stations.set st (g (s.fsw.stations.get st)) } := rfl
@[simp] theorem State.modStation_axes (s : State) (st : Station) (g : StationRec → StationRec) :
    (s.modStation st g).axes = s.axes := rfl
@[simp] theorem State.modStation_pubX (s : State) (st : Station) (g : StationRec → StationRec) :
    (s.modStation st g).pubX = s.pubX := rfl
@[simp] theorem State.modStation_pubW (s : State) (st : Station) (g : StationRec → StationRec) :
    (s.modStation st g).pubW = s.pubW := rfl
@[simp] theorem State.modStation_sgu (s : State) (st : Station) (g : StationRec → StationRec) :
    (s.modStation st g).sgu = s.sgu := rfl
@[simp] theorem State.modStation_clu (s : State) (st : Station) (g : StationRec → StationRec) :
    (s.modStation st g).clu = s.clu := rfl
@[simp] theorem State.modStation_iou (s : State) (st : Station) (g : StationRec → StationRec) :
    (s.modStation st g).iou = s.iou := rfl
@[simp] theorem State.modStation_perms (s : State) (st : Station) (g : StationRec → StationRec) :
    (s.modStation st g).perms = s.perms := rfl
@[simp] theorem State.modStation_pdu (s : State) (st : Station) (g : StationRec → StationRec) :
    (s.modStation st g).pdu = s.pdu := rfl
@[simp] theorem State.modStation_svr (s : State) (st : Station) (g : StationRec → StationRec) :
    (s.modStation st g).svr = s.svr := rfl
@[simp] theorem State.modStation_tbm (s : State) (st : Station) (g : StationRec → StationRec) :
    (s.modStation st g).tbm = s.tbm := rfl
@[simp] theorem State.modStation_cfg (s : State) (st : Station) (g : StationRec → StationRec) :
    (s.modStation st g).cfg = s.cfg := rfl
@[simp] theorem State.modStation_evu (s : State) (st : Station) (g : StationRec → StationRec) :
    (s.modStation st g).evu = s.evu := rfl

@[simp] theorem State.setInput_pending (s : State) (n : Fin 48) (r : InputRec) :
    (s.setInput n r).pending = s.pending := rfl
@[simp] theorem State.setInput_now (s : State) (n : Fin 48) (r : InputRec) : (s.setInput n r).now = s.now := rfl
@[simp] theorem State.setInput_free (s : State) (n : Fin 48) (r : InputRec) : (s.setInput n r).free = s.free := rfl
@[simp] theorem State.setInput_fsw (s : State) (n : Fin 48) (r : InputRec) : (s.setInput n r).fsw = s.fsw := rfl
@[simp] theorem State.setInput_axes (s : State) (n : Fin 48) (r : InputRec) : (s.setInput n r).axes = s.axes := rfl
@[simp] theorem State.setInput_pubX (s : State) (n : Fin 48) (r : InputRec) : (s.setInput n r).pubX = s.pubX := rfl
@[simp] theorem State.setInput_pubW (s : State) (n : Fin 48) (r : InputRec) : (s.setInput n r).pubW = s.pubW := rfl
@[simp] theorem State.setInput_sgu (s : State) (n : Fin 48) (r : InputRec) : (s.setInput n r).sgu = s.sgu := rfl
@[simp] theorem State.setInput_clu (s : State) (n : Fin 48) (r : InputRec) : (s.setInput n r).clu = s.clu := rfl
@[simp] theorem State.setInput_iou (s : State) (n : Fin 48) (r : InputRec) :
    (s.setInput n r).iou = { s.iou with inputs := s.iou.inputs.set n r } := rfl
@[simp] theorem State.setInput_perms (s : State) (n : Fin 48) (r : InputRec) : (s.setInput n r).perms = s.perms := rfl
@[simp] theorem State.setInput_pdu (s : State) (n : Fin 48) (r : InputRec) : (s.setInput n r).pdu = s.pdu := rfl
@[simp] theorem State.setInput_svr (s : State) (n : Fin 48) (r : InputRec) : (s.setInput n r).svr = s.svr := rfl
@[simp] theorem State.setInput_tbm (s : State) (n : Fin 48) (r : InputRec) : (s.setInput n r).tbm = s.tbm := rfl
@[simp] theorem State.setInput_cfg (s : State) (n : Fin 48) (r : InputRec) : (s.setInput n r).cfg = s.cfg := rfl
@[simp] theorem State.setInput_evu (s : State) (n : Fin 48) (r : InputRec) : (s.setInput n r).evu = s.evu := rfl

@[simp] theorem State.setOutput_pending (s : State) (n : Fin 32) (r : OutputRec) :
    (s.setOutput n r).pending = s.pending := rfl
@[simp] theorem State.setOutput_now (s : State) (n : Fin 32) (r : OutputRec) : (s.setOutput n r).now = s.now := rfl
@[simp] theorem State.setOutput_free (s : State) (n : Fin 32) (r : OutputRec) : (s.setOutput n r).free = s.free := rfl
@[simp] theorem State.setOutput_fsw (s : State) (n : Fin 32) (r : OutputRec) : (s.setOutput n r).fsw = s.fsw := rfl
@[simp] theorem State.setOutput_axes (s : State) (n : Fin 32) (r : OutputRec) : (s.setOutput n r).axes = s.axes := rfl
@[simp] theorem State.setOutput_pubX (s : State) (n : Fin 32) (r : OutputRec) : (s.setOutput n r).pubX = s.pubX := rfl
@[simp] theorem State.setOutput_pubW (s : State) (n : Fin 32) (r : OutputRec) : (s.setOutput n r).pubW = s.pubW := rfl
@[simp] theorem State.setOutput_sgu (s : State) (n : Fin 32) (r : OutputRec) : (s.setOutput n r).sgu = s.sgu := rfl
@[simp] theorem State.setOutput_clu (s : State) (n : Fin 32) (r : OutputRec) : (s.setOutput n r).clu = s.clu := rfl
@[simp] theorem State.setOutput_iou (s : State) (n : Fin 32) (r : OutputRec) :
    (s.setOutput n r).iou = { s.iou with outputs := s.iou.outputs.set n r } := rfl
@[simp] theorem State.setOutput_perms (s : State) (n : Fin 32) (r : OutputRec) :
    (s.setOutput n r).perms = s.perms := rfl
@[simp] theorem State.setOutput_pdu (s : State) (n : Fin 32) (r : OutputRec) : (s.setOutput n r).pdu = s.pdu := rfl
@[simp] theorem State.setOutput_svr (s : State) (n : Fin 32) (r : OutputRec) : (s.setOutput n r).svr = s.svr := rfl
@[simp] theorem State.setOutput_tbm (s : State) (n : Fin 32) (r : OutputRec) : (s.setOutput n r).tbm = s.tbm := rfl
@[simp] theorem State.setOutput_cfg (s : State) (n : Fin 32) (r : OutputRec) : (s.setOutput n r).cfg = s.cfg := rfl
@[simp] theorem State.setOutput_evu (s : State) (n : Fin 32) (r : OutputRec) : (s.setOutput n r).evu = s.evu := rfl

@[simp] theorem raise_pending (s : State) (c : Code) (src : Source) (d : Nat) :
    (raise c src d s).pending = s.pending := rfl
@[simp] theorem raise_now (s : State) (c : Code) (src : Source) (d : Nat) : (raise c src d s).now = s.now := rfl
@[simp] theorem raise_free (s : State) (c : Code) (src : Source) (d : Nat) : (raise c src d s).free = s.free := rfl
@[simp] theorem raise_fsw (s : State) (c : Code) (src : Source) (d : Nat) : (raise c src d s).fsw = s.fsw := rfl
@[simp] theorem raise_axes (s : State) (c : Code) (src : Source) (d : Nat) : (raise c src d s).axes = s.axes := rfl
@[simp] theorem raise_pubX (s : State) (c : Code) (src : Source) (d : Nat) : (raise c src d s).pubX = s.pubX := rfl
@[simp] theorem raise_pubW (s : State) (c : Code) (src : Source) (d : Nat) : (raise c src d s).pubW = s.pubW := rfl
@[simp] theorem raise_sgu (s : State) (c : Code) (src : Source) (d : Nat) : (raise c src d s).sgu = s.sgu := rfl
@[simp] theorem raise_clu (s : State) (c : Code) (src : Source) (d : Nat) : (raise c src d s).clu = s.clu := rfl
@[simp] theorem raise_iou (s : State) (c : Code) (src : Source) (d : Nat) : (raise c src d s).iou = s.iou := rfl
@[simp] theorem raise_perms (s : State) (c : Code) (src : Source) (d : Nat) : (raise c src d s).perms = s.perms := rfl
@[simp] theorem raise_pdu (s : State) (c : Code) (src : Source) (d : Nat) : (raise c src d s).pdu = s.pdu := rfl
@[simp] theorem raise_svr (s : State) (c : Code) (src : Source) (d : Nat) : (raise c src d s).svr = s.svr := rfl
@[simp] theorem raise_tbm (s : State) (c : Code) (src : Source) (d : Nat) : (raise c src d s).tbm = s.tbm := rfl
@[simp] theorem raise_cfg (s : State) (c : Code) (src : Source) (d : Nat) : (raise c src d s).cfg = s.cfg := rfl
@[simp] theorem raise_evu (s : State) (c : Code) (src : Source) (d : Nat) :
    (raise c src d s).evu = s.evu.take ⟨c, src, d, s.fsw.lastSeq⟩ := rfl

end Sys2Proof.Machine
end

