-- ==== Sys2Proof/Laws/Frames.lean ====
section
/-! SUPPORT. What the parts of a drive frame hand over, what a program phase makes of a byte, what an expiry that has come
due does with the queue, permissions that stand through a frame, and the conditions of an activation. -/

namespace Sys2Proof.Machine

/-! ## The compensation half of a drive frame (R2, R12 to R14) -/

/-- The direction, compensation, list entry and demand that one drive frame gives an axis record; the rest is kept. -/
theorem compensate_axis_self (a : Axis) (q : Byte) (s : State) :
    (compensate a q s).axis a =
      let r := s.axis a
      let p := s.cfg.axis.get a
      let dir := dirAfter r.dir r.s
      let c := slewComp r.comp (compTarget (pitchTerm s a r.f) (crossTerm s a) (backlashTerm dir p.backlash) p.ceiling) p.slew
      { r with
        dir := dir, comp := c, uncompensated := pitchWithheld s a, sent := pushSent r.sent q c
        demand := axisDemand r.f c } :=
  PerAxis.get_set_self s.axes a _

theorem compensate_axis_other (a a' : Axis) (q : Byte) (s : State) (h : a' ≠ a) :
    (compensate a q s).axis a' = s.axis a' := PerAxis.get_set_other s.axes a a' _ h

theorem onlyWrites_compensate (a : Axis) (q : Byte) (s : State) : onlyWrites { axes := true } s (compensate a q s) :=
  onlyWrites_modAxis s a _

/-- The entry of the frame stands last in the sent-compensation list. -/
theorem pushSent_getLast (l : List (Byte × Int)) (q : Byte) (c : Int) : (pushSent l q c).getLast? = some (q, c) := by
  simp [pushSent]

/-! ## The program phase (R183) -/

/-- Programming brings no byte back to the erased value. -/
theorem programByte_ne_erased {old v : Byte} (h : old ≠ erased) : programByte old v ≠ erased := by
  unfold programByte
  rw [if_neg h]
  show (if _ then _ else _) ≠ erased
  split
  · exact h
  · rename_i k
    exact fun e => k (.inr e)

/-- An erased byte takes the value programmed. -/
@[simp] theorem programByte_erased (v : Byte) : programByte erased v = v := if_pos rfl

/-- A cell that the program phase leaves otherwise has not come back to the erased value either. -/
theorem spoiltByte_ne_erased {old v : Byte} (h : old ≠ erased) : spoiltByte old v ≠ erased := by
  unfold spoiltByte
  split
  · exact h
  · assumption

/-- The cells keep their addresses. -/
@[simp] theorem cellsOver_map_fst (g : Byte → Byte → Byte) (m : List Host.Cell) (a : Nat) (l : List Host.Cell) :
    (cellsOver g m a l).map Prod.fst = l.map Prod.fst := by simp [cellsOver, Function.comp_def]

/-! ## Expiries and discarded frames -/

/-- Of the expiries that have come due together one is taken, and it is one of them. -/
theorem orderExpiries_take_one (n : Nat) {l : List Instr} (h : l ≠ []) : ∃ c ∈ l, (orderExpiries n l).take 1 = [c] := by
  have perm : (orderExpiries n l).Perm l := by
    unfold orderExpiries
    split
    · exact .refl l
    · exact permute_perm n l
  cases e : orderExpiries n l with
  | nil => exact absurd (List.Perm.nil_eq (e ▸ perm)).symm h
  | cons c k => exact ⟨c, perm.subset (e ▸ List.mem_cons_self), rfl⟩

/-- Every step of the end of an event reads and leaves none of the link counters, so that it commutes with a count. -/
theorem ileEval_modCounters (g : Counters → Counters) (s : State) :
    ileEval (s.modCounters g) = (ileEval s).modCounters g := rfl

theorem syncOwned_modCounters (g : Counters → Counters) (s : State) :
    syncOwned (s.modCounters g) = (syncOwned s).modCounters g := rfl

theorem formLeds_modCounters (g : Counters → Counters) (s : State) :
    formLeds (s.modCounters g) = (formLeds s).modCounters g := by
  have e : ledImage (s.modCounters g) = ledImage s := congrArg (BitVec.ofNat 8) (congrArg bitsNat rfl)
  unfold formLeds
  simp only [e, State.modCounters_pdu]
  split <;> rfl

theorem placeLeds_modCounters (g : Counters → Counters) (s : State) :
    placeLeds (s.modCounters g) = (placeLeds s).modCounters g := by
  unfold placeLeds
  dsimp only
  rw [apply_ite fun u : State => u.modCounters g]
  rfl

theorem placeDisplay_modCounters (g : Counters → Counters) (s : State) :
    placeDisplay (s.modCounters g) = (placeDisplay s).modCounters g := by
  unfold placeDisplay
  dsimp only
  rw [apply_ite fun u : State => u.modCounters g]
  rfl

theorem startByte_modCounters (g : Counters → Counters) (s : State) :
    startByte (s.modCounters g) = (startByte s).modCounters g := by
  unfold startByte
  dsimp only
  rw [apply_ite fun u : State => u.modCounters g]
  rfl

theorem finish_modCounters (g : Counters → Counters) (s : State) :
    finish (s.modCounters g) = (finish s).modCounters g := by
  unfold finish
  rw [ileEval_modCounters, syncOwned_modCounters, formLeds_modCounters, placeLeds_modCounters,
    placeDisplay_modCounters, startByte_modCounters]

/-! ## Permissions that stand, and the conditions of an activation -/

/-- What `grantStands` says holds in every state with the same interlock table (R107). -/
theorem permGranted_of_grantStands {s u : State} {p : Perm} (h : grantStands s p)
    (hc : u.cfg.interlock = s.cfg.interlock) : permGranted u p = true := by
  simp only [permGranted, hc, List.all_eq_true, Bool.or_eq_true, decide_eq_true_eq]
  exact fun r hr => .inl (h.2 r hr)

/-- What `denialStands` says holds in every state with the same interlock table and inputs (R106, R107). -/
theorem permGranted_of_denialStands {s u : State} {p : Perm} (h : denialStands s p)
    (hc : u.cfg.interlock = s.cfg.interlock) (hi : u.iou.inputs = s.iou.inputs) : permGranted u p = false := by
  obtain ⟨-, r, hr, ht, hm, x, hx, n, hn, hne⟩ := h
  have hin : u.input n = s.input n := by simp only [State.input, hi]
  have hx' : termHolds u x = false := by simp [termHolds, condHolds, hn, hin, hne]
  have hrow : rowHolds u r = false := by
    simp only [rowHolds, hm, Bool.false_eq_true, if_false, List.all_eq_false]
    exact ⟨x, hx, by simp [hx']⟩
  simp only [permGranted, hc, List.all_eq_false]
  exact ⟨r, hr, by simp [ht, hrow]⟩

theorem anyAxis_eq_false {s : State} {f : AxisRec → Bool} : anyAxis s f = false ↔ ∀ a, f (s.axis a) = false := by
  simp only [anyAxis, Bool.or_eq_false_iff]
  exact ⟨fun h a => by cases a <;> simp only [State.axis, PerAxis.get, h], fun h =>
    ⟨⟨⟨⟨h .x, h .y⟩, h .z⟩, h .w⟩, h .b⟩⟩

/-- The check that ACTIVATE makes is the condition that R182 and the block chapters name. -/
theorem mayActivate_iff (id : TableId) (new : Tables) (s : State) : mayActivate id new s = true ↔ mayTake id new s := by
  have hs (a : Axis) : axisSettled (s.axis a) = true ↔
      ((s.axis a).follower = .held ∧ (s.axis a).w = 0) ∨ (s.axis a).follower = .disabled := by simp [axisSettled]
  have hc : allCircuitsOff s = true ↔ ∀ c, (s.circuit c).state = .off := by
    simp only [allCircuitsOff, Bool.and_eq_true, decide_eq_true_eq]
    refine ⟨fun h c => ?_, fun h => ⟨⟨h .flood, h .through⟩, h .air⟩⟩
    cases c
    · exact h.1.1
    · exact h.1.2
    · exact h.2
  have hg : gearboxAtRest s = true ↔ s.sgu.purgeWait = false ∧
      (s.sgu.shift = .settled ∨ s.sgu.shift = .failed ∨ s.sgu.shift = .unknown) ∧
      s.sgu.actual.natAbs ≤ s.cfg.gear.stopThreshold := by
    simp only [gearboxAtRest, shiftUnderWay, standstill]
    cases s.sgu.shift <;> simp
  have hm : machineAtRest s = true ↔ (∀ a, (s.axis a).follower = .held ∨ (s.axis a).follower = .disabled) ∧
      gearboxAtRest s = true ∧ allCircuitsOff s = true := by
    simp only [machineAtRest, Bool.and_eq_true, Bool.not_eq_true', anyAxis_eq_false, axisAtRest, and_assoc]
    simp [← Decidable.or_iff_not_imp_left]
  have hk : clampsKept s.cfg.outputs new.outputs s = true ↔
      ∀ a, (s.axis a).clamp = .free ∨ clampOutputOf s.cfg.outputs a = clampOutputOf new.outputs a := by
    simp only [clampsKept, List.all_eq_true, Bool.or_eq_true, decide_eq_true_eq]
    exact ⟨fun h a => h a (by cases a <;> decide), fun h a _ => h a⟩
  cases id <;> simp only [mayActivate, mayTake, ← hs, ← hc, ← hg, hm, ← hk, Bool.and_eq_true]
  case axisParams a =>
    simp only [mayChangeAxis, Bool.and_eq_true, Bool.or_eq_true, decide_eq_true_eq, Bool.not_eq_true', and_assoc,
      Bool.and_eq_false_iff, decide_eq_false_iff_not]
    grind
  case pendant => simp
  case link => simp

end Sys2Proof.Machine
end

