-- ==== Sys2Proof/Laws/Memory.lean ====
section
/-! SUPPORT. The byte memory: every operation keeps the canonical form, a byte reads back where it was written, and every
other byte reads as before. -/

namespace Sys2Proof.Machine

theorem memWfFrom_mono {d : Byte} {m : List Host.Cell} {lo lo' : Nat} (h : memWfFrom d lo m = true) (hl : lo' ≤ lo) :
    memWfFrom d lo' m = true := by
  cases m with
  | nil => rfl
  | cons c m =>
    obtain ⟨k, v⟩ := c
    simp only [memWfFrom, Bool.and_eq_true, decide_eq_true_eq] at h ⊢
    exact ⟨⟨by omega, h.1.2⟩, h.2⟩

/-- A write keeps the canonical form. -/
theorem memWrite_wfFrom {d : Byte} {m : List Host.Cell} {lo a : Nat} {v : Byte} (h : memWfFrom d lo m = true)
    (hl : lo ≤ a) : memWfFrom d lo (memWrite d m a v) = true := by
  induction m generalizing lo with
  | nil =>
    unfold memWrite
    split
    · rfl
    · simp_all [memWfFrom]
  | cons c m ih =>
    obtain ⟨k, u⟩ := c
    simp only [memWfFrom, Bool.and_eq_true, decide_eq_true_eq] at h
    unfold memWrite
    split
    · simp only [memWfFrom, Bool.and_eq_true, decide_eq_true_eq]
      exact ⟨h.1, ih h.2 (by omega)⟩
    · split
      · subst_vars
        split
        · exact memWfFrom_mono h.2 (by omega)
        · simp only [memWfFrom, Bool.and_eq_true, decide_eq_true_eq]
          exact ⟨⟨hl, by assumption⟩, h.2⟩
      · split
        · simp only [memWfFrom, Bool.and_eq_true, decide_eq_true_eq]
          exact h
        · simp only [memWfFrom, Bool.and_eq_true, decide_eq_true_eq]
          exact ⟨⟨hl, by assumption⟩, ⟨by omega, h.1.2⟩, h.2⟩

theorem memWrite_wf {d : Byte} {m : List Host.Cell} {a : Nat} {v : Byte} (h : memWf d m = true) :
    memWf d (memWrite d m a v) = true :=
  memWrite_wfFrom h (Nat.zero_le a)

theorem memWriteList_wf {d : Byte} {m : List Host.Cell} {a : Nat} {l : List Byte} (h : memWf d m = true) :
    memWf d (memWriteList d m a l) = true := by
  induction l generalizing m a with
  | nil => exact h
  | cons v l ih => exact ih (memWrite_wf h)

theorem memWriteCells_wf {d : Byte} {m : List Host.Cell} {a : Nat} {l : List Host.Cell} (h : memWf d m = true) :
    memWf d (memWriteCells d m a l) = true := by
  induction l generalizing m with
  | nil => exact h
  | cons c l ih =>
    obtain ⟨k, v⟩ := c
    exact ih (memWrite_wf h)

theorem filter_wfFrom {d : Byte} {m : List Host.Cell} {lo : Nat} (p : Host.Cell → Bool) (h : memWfFrom d lo m = true) :
    memWfFrom d lo (m.filter p) = true := by
  induction m generalizing lo with
  | nil => exact h
  | cons c m ih =>
    obtain ⟨k, v⟩ := c
    simp only [memWfFrom, Bool.and_eq_true, decide_eq_true_eq] at h
    by_cases hp : p (k, v) = true
    · rw [List.filter_cons_of_pos hp]
      simp only [memWfFrom, Bool.and_eq_true, decide_eq_true_eq]
      exact ⟨h.1, ih h.2⟩
    · rw [List.filter_cons_of_neg hp]
      exact memWfFrom_mono (ih h.2) (by omega)

theorem memClear_wf {d : Byte} {m : List Host.Cell} {a n : Nat} (h : memWf d m = true) :
    memWf d (memClear m a n) = true :=
  filter_wfFrom _ h

theorem memRead_below {d : Byte} {m : List Host.Cell} {lo a : Nat} (h : memWfFrom d lo m = true) (ha : a < lo) :
    memRead d m a = d := by
  induction m generalizing lo with
  | nil => rfl
  | cons c m ih =>
    obtain ⟨k, v⟩ := c
    simp only [memWfFrom, Bool.and_eq_true, decide_eq_true_eq] at h
    have hk : k ≠ a := by omega
    simp only [memRead, hk, if_false]
    exact ih h.2 (by omega)

/-- A byte reads back where it was written. -/
theorem memRead_write_same {d : Byte} {m : List Host.Cell} {a : Nat} {v : Byte} (h : memWf d m = true) :
    memRead d (memWrite d m a v) a = v := by
  have gen : ∀ lo, memWfFrom d lo m = true → memRead d (memWrite d m a v) a = v := by
    induction m with
    | nil =>
      intro lo _
      unfold memWrite
      split
      · simp_all [memRead]
      · simp [memRead]
    | cons c m ih =>
      obtain ⟨k, u⟩ := c
      intro lo h
      simp only [memWfFrom, Bool.and_eq_true, decide_eq_true_eq] at h
      unfold memWrite
      split
      · have hk : k ≠ a := by omega
        simp only [memRead, hk, if_false]
        exact ih (memWfFrom_mono h.2 (Nat.zero_le _)) _ h.2
      · split
        · subst_vars
          split
          · subst_vars
            exact memRead_below h.2 (Nat.lt_succ_self _)
          · simp [memRead]
        · split
          · subst_vars
            have hk : k ≠ a := by assumption
            simp only [memRead, hk, if_false]
            exact memRead_below h.2 (by omega)
          · simp [memRead]
  exact gen 0 h

/-- Every other byte reads as before a write, whatever the list. -/
theorem memRead_write_other {d : Byte} {m : List Host.Cell} {a b : Nat} {v : Byte} (hb : b ≠ a) :
    memRead d (memWrite d m a v) b = memRead d m b := by
  induction m with
  | nil =>
    unfold memWrite
    split
    · rfl
    · simp [memRead, Ne.symm hb]
  | cons c m ih =>
    obtain ⟨k, u⟩ := c
    unfold memWrite
    split
    · simp only [memRead, ih]
    · split
      · subst_vars
        split
        · simp [memRead, Ne.symm hb]
        · simp [memRead, Ne.symm hb]
      · split
        · rfl
        · simp [memRead, Ne.symm hb]

/-- A byte outside the span of a list reads as before. -/
theorem memRead_writeList_other {d : Byte} {m : List Host.Cell} {a b : Nat} {l : List Byte}
    (hb : b < a ∨ a + l.length ≤ b) : memRead d (memWriteList d m a l) b = memRead d m b := by
  induction l generalizing m a with
  | nil => rfl
  | cons v l ih =>
    simp only [List.length_cons] at hb
    show memRead d (memWriteList d (memWrite d m a v) (a + 1) l) b = _
    rw [ih (by omega), memRead_write_other (by omega)]

/-- Consecutive bytes read back where they were written. -/
theorem memRead_writeList_same {d : Byte} {m : List Host.Cell} {a k : Nat} {l : List Byte} (h : memWf d m = true)
    (hk : k < l.length) : memRead d (memWriteList d m a l) (a + k) = l.getD k 0 := by
  induction l generalizing m a k with
  | nil => exact absurd hk (Nat.not_lt_zero k)
  | cons v l ih =>
    show memRead d (memWriteList d (memWrite d m a v) (a + 1) l) (a + k) = _
    cases k with
    | zero => rw [memRead_writeList_other (by omega), Nat.add_zero, memRead_write_same h]; rfl
    | succ k =>
      simp only [List.length_cons] at hk
      have := ih (a := a + 1) (memWrite_wf (a := a) (v := v) h) (k := k) (by omega)
      rw [show a + (k + 1) = a + 1 + k by omega, this]
      rfl

/-- A byte that no cell names reads as before. -/
theorem memRead_writeCells_other {d : Byte} {m : List Host.Cell} {a b : Nat} {l : List Host.Cell}
    (hb : ∀ c ∈ l, b ≠ a + c.1) : memRead d (memWriteCells d m a l) b = memRead d m b := by
  induction l generalizing m with
  | nil => rfl
  | cons c l ih =>
    obtain ⟨k, v⟩ := c
    show memRead d (memWriteCells d (memWrite d m (a + k) v) a l) b = _
    rw [ih fun c hc => hb c (List.mem_cons_of_mem _ hc), memRead_write_other (hb (k, v) List.mem_cons_self)]

/-- A cleared byte reads as unlisted; every other byte as before. -/
theorem memRead_clear {d : Byte} (m : List Host.Cell) (a n b : Nat) :
    memRead d (memClear m a n) b = if a ≤ b ∧ b < a + n then d else memRead d m b := by
  induction m with
  | nil => simp [memClear, memRead]
  | cons c m ih =>
    obtain ⟨k, v⟩ := c
    unfold memClear at ih ⊢
    by_cases hp : (decide (k < a) || decide (a + n ≤ k)) = true
    · rw [List.filter_cons_of_pos (by simpa using hp)]
      simp only [memRead]
      rw [ih]
      simp only [Bool.or_eq_true, decide_eq_true_eq] at hp
      by_cases hk : k = b
      · subst hk
        rw [if_pos rfl, if_pos rfl, if_neg (by omega)]
      · rw [if_neg hk, if_neg hk]
    · rw [List.filter_cons_of_neg (by simpa using hp), ih]
      simp only [Bool.or_eq_true, decide_eq_true_eq, not_or] at hp
      simp only [memRead]
      by_cases hk : k = b
      · subst hk
        rw [if_pos (by omega), if_pos (by omega)]
      · rw [if_neg hk]

end Sys2Proof.Machine
end

