-- ==== Sys2Proof/WellFormed.lean ====
section
/-! DEFINITION. Which commands the surroundings of the bridge can send: what the operand types leave open. -/

namespace Sys2Proof

/-- A sector holds 2,048 bytes (R183). -/
def offsetsInSector (l : List Nat) : Bool := l.all (· < 2048)

/-- A frame occupies the data field of one Ethernet frame (R202), which holds at most 1,500 bytes. -/
def fitsDataField (data : List Byte) : Bool := data.length ≤ 1500

/-- A command as the surroundings can send it. Input, output, station and axis numbers are in range by their types. -/
def Instr.wellFormed : Instr → Bool
  | .commandFrame data => fitsDataField data
  | .driveReturn data => fitsDataField data
  | .coldReset done => offsetsInSector done
  | .storePhaseTimeout done => offsetsInSector done
  | .storePhaseEnd bad => offsetsInSector (bad.map Prod.fst)
  | .resetRelease | .loadEnd | .warmReset | .windowTimerExpiry | .periodTimerExpiry | .linkTimerExpiry
  | .restTimerExpiry | .passThroughTimerExpiry _ | .inputLevelChange _ _ | .debounceTimerExpiry _
  | .clampTimerExpiry _ | .pulseTimerExpiry _ | .stopTimerExpiry | .meshTimerExpiry | .attemptTimerExpiry
  | .creepTimerExpiry | .confirmTimerExpiry | .retryTimerExpiry | .sensorTimerExpiry | .primeTimerExpiry _
  | .lossTimerExpiry _ | .purgeTimerExpiry | .periodStart _ | .characterReceived _ _ _ | .decodeInterval
  | .pendantTimerExpiry | .displayTimerExpiry | .ctsChange _ | .transmitByteDone | .drainTimerExpiry
  | .highPartEnd _ => true

end Sys2Proof
end

