-- ==== Sys2Proof/Tests/Slice0.lean ====
section
/-! SUPPORT. Tests of single steps and operations; their expected values come from the manual's worked cases and tables.
Then, for every obligation with hypotheses, a concrete state and operands that meet them together (`witness_…`). -/

namespace Sys2Proof.Machine

set_option Elab.async false

/-! ## Well-formedness: every check refuses an ill-formed term -/

theorem test_commandFrame_over_data_field :
    (Instr.commandFrame (List.replicate 1501 0)).wellFormed = false ∧
      (Instr.commandFrame (List.replicate 1500 0)).wellFormed = true := by decide +kernel

theorem test_driveReturn_over_data_field :
    (Instr.driveReturn (List.replicate 1501 0)).wellFormed = false ∧
      (Instr.driveReturn (List.replicate 1500 0)).wellFormed = true := by decide +kernel

theorem test_coldReset_outside_sector :
    (Instr.coldReset [2048]).wellFormed = false ∧ (Instr.coldReset [2047]).wellFormed = true := by decide

theorem test_storePhaseTimeout_outside_sector :
    (Instr.storePhaseTimeout [0, 2048]).wellFormed = false ∧ (Instr.storePhaseTimeout [0, 2047]).wellFormed = true := by
  decide

theorem test_storePhaseEnd_outside_sector :
    (Instr.storePhaseEnd [(2048, 0#8)]).wellFormed = false ∧ (Instr.storePhaseEnd [(2047, 0#8)]).wellFormed = true := by
  decide

/-! ## Helpers -/

/-- The state after a command. -/
def after (c : Instr) (s : State) : State :=
  match exec c s with
  | .next t => t
  | _ => s

/-- The state after a step. -/
def stepped (s : State) : State :=
  match step s with
  | .next t => t
  | _ => s

/-- In STANDBY with every table at its default. -/
def standby : State := { State.reset with fsw.state := .standby }

/-- A warm reset is due. -/
def restarting : State := { standby with fsw.restart := .due }

def running : State := { State.reset with fsw.state := .running }

def linkLost : State :=
  { State.reset with
    fsw.state := .linkLost, axes := .all { AxisRec.reset with holds.linkLost := true }, pdu.ledImage := 0 }

def waiting (c : Instr) (s : State) : State := { s with pending := [c] }

/-- An axis slot as the controller writes it: setpoint, absorb amount and control byte (R202). -/
structure Slot where
  setpoint : Int := 0
  amount : Int := 0
  control : Byte := 0

/-- A command frame laid out as R202 has it; the CRC is that of `crc16`, tested below on its own. -/
def frame (seq : Byte) (run : Bool := true) (x w : Slot := {}) (coolant : List Byte := [0, 0, 0])
    (set clear pulse : Nat := 0) (service : List Byte := []) (spindle : List Byte := [0, 0, 0, 0]) : List Byte :=
  let slot (s : Slot) : List Byte := sle32 s.setpoint ++ sle32 s.amount ++ [s.control]
  let bare := [0x11#8, seq, if run then 1 else 0] ++ le16 (72 + service.length) ++
    [BitVec.ofNat 8 service.length] ++ slot x ++ slot {} ++ slot {} ++ slot w ++ slot {} ++ spindle ++ coolant ++
    le32 set ++ le32 clear ++ le32 pulse ++ service
  bare ++ le16 (crc16 bare).toNat

/-- A drive return as R202 has it. -/
def returned (seq station : Byte) (actual : Int) (status : Byte := 1) (code : Byte := 0)
    (segment : List Byte := []) : List Byte :=
  let bare := [0x22#8, seq] ++ le16 (14 + segment.length) ++ [station] ++ sle32 actual ++
    [status, code, BitVec.ofNat 8 segment.length] ++ segment
  bare ++ le16 (crc16 bare).toNat

/-- The window of drive frame `q` with stations still to come. -/
def openWindow (q : Byte) (taken : PerStation Bool) (s : State) : State :=
  { s with fsw.window := some ⟨q, taken, none⟩, fsw.windowTimer := some 1000 }

/-- The gear table of the worked cases of chapter 3. -/
def workedGear : GearTable :=
  { ranges := some
      { i := ⟨20, 100, 600, 15, 1, 100, [8]⟩, ii := ⟨21, 400, 2500, 37, 9, 150, [9]⟩
        iii := ⟨22, 1500, 6000, 3, 2, 150, [8, 10]⟩, iv := ⟨23, 4000, 12000, 3, 4, 200, [9, 10]⟩, neutral := 24 }
    motorMax := 10000, stopThreshold := 20, stopTimeout := 5000, meshTime := 300, creepHalf := 200
    attemptTimeout := 1500, maxAttempts := 3, confirmTime := 50, retryPause := 500 }

/-- The coolant table of the worked case of chapter 4: THROUGH on switch 30, AIR without a switch. -/
def workedCoolant : CoolantTable :=
  { CoolantTable.default with
    circuit := ⟨⟨false, none, 0, 0⟩, ⟨true, some 30, 2000, 150⟩, ⟨true, none, 0, 0⟩⟩
    purge := 3000, unionMin := 800, holdEnabled := true, holdMask := ⟨true, false, true, true, false⟩, pw0Base := 16
    throughDuty := [0, 16, 32, 48, 64, 80, 96, 112, 128, 144, 160, 176, 192, 208, 224, 240] }

def geared (g : Sgu) : State := { running with sgu := g, cfg.gear := workedGear }

def plainRx (b : Byte) : RxByte := ⟨b, false, false, false, false, false⟩

/-! ## Arithmetic, checks and motion against the worked cases -/

/-- The remainder register of R202 over one byte of zeros, shifted by hand: 0xFFFF becomes 0xE1F0. -/
theorem test_crc_one_zero : crc16 [0#8] = 0xE1F0#16 := by decide

/-- 1.8: the change −13.44 rounds to −13, and Ep is −153. -/
theorem test_pitch_point :
    interpLinear ⟨0, 250000, List.replicate 5 0 ++ [-140, -188] ++ List.replicate 193 0⟩ 1320000 = -153 := by
  decide +kernel

/-- 1.8: B across the origin, where 14.5 rounds away from zero and Ep is 27. -/
theorem test_rotary_origin :
    interpRotary ⟨0, 100000, [41] ++ List.replicate 34 0 ++ [12]⟩ (-50000) = 27 := by decide +kernel

/-- 1.8: Y with an extended quill; beyond the table the last entry is held. -/
theorem test_cross_held :
    interpLinear ⟨0, 500000, [0, 0, 0, 0, 0, 0, 310, 365, 0, 0, 0, 0, 0, 0, 0, 0, 7]⟩ 3200000 = 332 ∧
      interpLinear ⟨0, 500000, [0, 0, 0, 0, 0, 0, 310, 365, 0, 0, 0, 0, 0, 0, 0, 0, 7]⟩ 9000000 = 7 := by
  decide +kernel

/-- 1.8: the slew takes C from −200 to −250, then to −273. -/
theorem test_slew : slewComp (-200) (-273) 50 = -250 ∧ slewComp (-250) (-273) 50 = -273 := by decide

/-- 2.10: the braking bounds of the catch-up. -/
theorem test_braking_bounds :
    brakeBound 500 17000 = 3500 ∧ brakeBound 500 12500 = 3000 ∧ brakeBound 500 1500 = 1000 ∧
      brakeBound 500 14000 = 3500 := by decide +kernel

/-- 2.10: absorb 12,000 of 12,000, and the refused absorb of −10,000. -/
theorem test_absorb :
    absorb 12000 12000 50000 = (0, false) ∧ absorb 45000 (-10000) 50000 = (45000, true) := by decide

/-- 3.9: the scaling of range II, and the half-way case of range III. -/
theorem test_range_demand :
    rangeDemand ⟨21, 400, 2500, 37, 9, 150, [9]⟩ 10000 ⟨1500, false, true⟩ = (6167, false) ∧
      rangeDemand ⟨21, 400, 2500, 37, 9, 150, [9]⟩ 10000 ⟨200, false, true⟩ = (1644, true) ∧
      rangeDemand ⟨21, 400, 2500, 37, 9, 150, [9]⟩ 10000 ⟨3000, true, true⟩ = (-10000, true) ∧
      rangeDemand ⟨22, 1500, 6000, 3, 2, 150, [8, 10]⟩ 10000 ⟨1501, true, true⟩ = (-2252, false) := by
  decide +kernel

/-- 7.9: gaps at the C-port. -/
theorem test_gaps : isGap (some 249#8) 250#8 = false ∧ isGap (some 250#8) 252#8 = true ∧
    isGap (some 255#8) 0#8 = false ∧ isGap (some 253#8) 0#8 = true := by decide

/-! ## Resets -/

theorem test_coldReset_enters_reset :
    (after (.coldReset []) { running with iou.inputs := Vector.replicate 48 ⟨true, false, some 9⟩ }).fsw.state = .reset ∧
      ((after (.coldReset []) { running with iou.inputs := Vector.replicate 48 ⟨true, false, some 9⟩ }).iou.inputs[0]) =
        ⟨true, true, none⟩ := by decide +kernel

theorem test_resetRelease_enters_loading : (after .resetRelease State.reset).fsw.state = .loading := by decide +kernel

theorem test_loadEnd_outside_loading : after .loadEnd running = running := by decide +kernel

theorem test_warmReset_keeps_counters :
    (after .warmReset { standby with fsw.restart := .due, fsw.counters.accepted := 7, fsw.lastSeq := some 9 }).fsw =
      { Fsw.reset with state := .standby, counters := { Counters.zero with accepted := 7 } } := by decide +kernel

/-! ## The cycle path -/

/-- R143: a damaged frame, and one of another kind. -/
theorem test_commandFrame_check_and_kind :
    (after (.commandFrame ((frame 10).set 7 1)) standby).fsw.counters.check = 1 ∧
      (after (.commandFrame (returned 10 1 0)) standby).fsw.counters.malformed = 1 := by decide +kernel

/-- R144, R147: a frame with RUN set in STANDBY opens the cycle of its sequence in RUNNING. -/
theorem test_commandFrame_runs :
    (let t := after (.commandFrame (frame 10)) standby
     decide (t.fsw.state = .running ∧ t.fsw.ownSeq = 10 ∧ t.fsw.linkTimer = some 3000 ∧
       t.fsw.windowTimer = some 1000 ∧ t.fsw.dPort.count = 1 ∧ t.fsw.dPort.last.map List.length = some 42)) = true := by
  decide +kernel

/-- R148: the self-paced frame carries the own sequence plus 1. -/
theorem test_periodTimerExpiry_self_paced :
    (let t := after .periodTimerExpiry { linkLost with fsw.periodTimer := some 7, fsw.ownSeq := 118 }
     decide (t.now = 7 ∧ t.fsw.ownSeq = 119 ∧ t.fsw.periodTimer = some 1007)) = true := by decide +kernel

/-- 7.9: the window timer closes window 41 without station 4, whose miss count rises and which is stale. -/
theorem test_windowTimerExpiry_late_return :
    (let t := after .windowTimerExpiry (openWindow 41 ⟨⟨true, true, true, false, true⟩, true⟩ running)
     decide (t.fsw.window = none ∧ (t.fsw.stations.get (.axis .w)).miss = 1 ∧ (t.axis .w).stale = true ∧
       (t.axis .x).stale = false)) = true := by decide +kernel

/-- 7.9: LINK_LOST is raised with detail 1 from RUNNING. -/
theorem test_linkTimerExpiry_from_running :
    (let t := after .linkTimerExpiry { running with fsw.linkTimer := some 3000, fsw.ownSeq := 118 }
     decide (t.fsw.state = .linkLost ∧ t.fsw.ownSeq = 119 ∧
       t.evu.urgent = [⟨.linkLost, .link, 1, none⟩] ∧ t.fsw.counters.losses = 1)) = true := by decide +kernel

theorem test_restTimerExpiry_to_standby :
    (let t := after .restTimerExpiry { linkLost with fsw.restTimer := some 250400 }
     decide (t.fsw.state = .standby ∧ t.fsw.runRelease = true ∧ (t.axis .x).holds.linkLost = false)) = true := by
  decide +kernel

/-- R172 check 3: self-paced frames still run in STANDBY. -/
theorem test_restart_waits_for_period_timer :
    (restart 10 [] { standby with fsw.periodTimer := some 7 }).1 = .notNow ∧ (restart 10 [] standby).1 = .ok := by
  decide +kernel

/-- R119: the decode interval has come due; the timebase stands for it. -/
theorem test_tick_takes_expiry :
    (tick { running with now := 2000 }).pending = [.decodeInterval] ∧ (tick { running with now := 2000 }).now = 2000 := by
  decide +kernel

/-- 1.8: the return of sequence 41 is corrected by the compensation sent with it. -/
theorem test_driveReturn_corrected :
    (let s := openWindow 41 (.all false)
      { running with axes.x := { AxisRec.reset with sent := [(41, -250), (42, -273)], f := 1320000 } }
     decide (((after (.driveReturn (returned 41 1 1319742)) s).axis .x).corrected = 1319992)) = true := by
  decide +kernel

/-- 7.9: a late return of an earlier drive frame is discarded. -/
theorem test_driveReturn_late :
    (after (.driveReturn (returned 41 4 0)) (openWindow 42 (.all false) running)).fsw.counters.discarded = 1 := by
  decide +kernel

/-- 8.8: the timer of station 4 expires with tag 17. -/
theorem test_passThroughTimerExpiry_answers :
    (after (.passThroughTimerExpiry (.axis .w))
      { running with svr.pass.axis.w := ⟨.outstanding, 17, 5, some 5000, []⟩ }).svr.queue =
      [⟨.axis .w, 17, 0x0D, [], false⟩] := by decide +kernel

/-! ## Inputs, outputs and clamps -/

/-- The door switch of 5.5: input 5 with 20 ms, NOTICE_BOTH, active. -/
def door : State :=
  { running with
    cfg.inputs.inputs := InputsTable.default.inputs.set 5 ⟨false, 20, .noticeBoth⟩
    iou.inputs := Iou.reset.inputs.set 5 ⟨true, true, none⟩ }

/-- 5.5: the first raw change starts the timer and reaches no consumer. -/
theorem test_inputLevelChange_debounces :
    (let t := after (.inputLevelChange 5 false) door
     decide (t.iou.inputs[5] = ⟨false, true, some 20000⟩ ∧ t.evu = .reset)) = true := by decide +kernel

/-- 5.5: at 29 ms the door is taken as open, with INPUT_EDGE of detail 0. -/
theorem test_debounceTimerExpiry_takes_edge :
    (let t := after (.debounceTimerExpiry 5) { door with iou.inputs := door.iou.inputs.set 5 ⟨false, true, some 29000⟩ }
     decide (t.input 5 = false ∧ t.evu.notices = [⟨.inputEdge, .input 5, 0, none⟩])) = true := by decide +kernel

theorem test_clampTimerExpiry_faults :
    (let t := after (.clampTimerExpiry .w) { running with axes.w := { AxisRec.reset with clamp := .clamping, clampTimer := some 4 } }
     decide ((t.axis .w).clamp = .clampFault ∧ (t.axis .w).fault = some ⟨.clampTimeout, true, 0⟩ ∧
       t.evu.urgent = [⟨.axisFault, .axis .w, 6, none⟩])) = true := by decide +kernel

theorem test_pulseTimerExpiry_turns_off :
    ((after (.pulseTimerExpiry 4) { running with iou.outputs := Iou.reset.outputs.set 4 ⟨true, some 3⟩ }).iou.outputs[4]) =
      ⟨false, none⟩ := by decide +kernel

/-- The outputs of 5.5: 3 LEVEL, 4 PULSE of 3,000 ms, 9 owned by the gear shift. -/
def lamps : State :=
  { running with
    cfg.outputs := (Tables.default.outputs.set 4 ⟨.general, true, 3000, true⟩).set 9 ⟨.gearShift, false, 10, true⟩ }

/-- 5.5: one frame of general outputs. -/
theorem test_general_outputs :
    (let t := outputFrame (some ⟨BitVec.ofNat 32 520, BitVec.ofNat 32 16, BitVec.ofNat 32 24⟩) lamps
     decide (t.iou.outputs[3] = ⟨true, none⟩ ∧ t.iou.outputs[4] = ⟨false, none⟩ ∧
       t.evu.notices = [⟨.pulseRefused, .link, 3, none⟩, ⟨.outputOwned, .link, 9, none⟩])) = true := by decide +kernel

/-! ## Gear shift (3.9) -/

def shifting : Sgu :=
  { Sgu.reset with
    shift := .shifting, target := some .iii, pendingTarget := some .iv, attempts := 1
    meshTimer := some 940000, attemptTimer := some 2140000 }

theorem test_stopTimerExpiry_fails :
    (let t := after .stopTimerExpiry (geared { shifting with shift := .stopping, stopTimer := some 5 })
     decide (t.sgu.shift = .failed ∧ t.evu.urgent = [⟨.gearShiftFailed, .spindle, 259, none⟩])) = true := by
  decide +kernel

theorem test_meshTimerExpiry_creeps :
    (let t := after .meshTimerExpiry (geared shifting)
     decide (t.sgu.shift = .creeping ∧ t.sgu.creepTimer = some 1140000 ∧ creepDemand t = 150)) = true := by decide +kernel

theorem test_creepTimerExpiry_reverses :
    (let t := after .creepTimerExpiry (geared { shifting with shift := .creeping, creepTimer := some 1140000 })
     decide (creepDemand t = -150 ∧ t.sgu.creepTimer = some 1340000)) = true := by decide +kernel

theorem test_attemptTimerExpiry_pauses :
    (let t := after .attemptTimerExpiry (geared shifting)
     decide (t.sgu.shift = .retryPause ∧ t.sgu.lastFailure = some .noMesh ∧ t.sgu.retryTimer = some 2640000)) = true := by
  decide +kernel

/-- 3.9: III is settled, and the pending IV starts a shift at once. -/
theorem test_confirmTimerExpiry_starts_pending :
    (let t := after .confirmTimerExpiry (geared { shifting with shift := .confirming, confirmTimer := some 1440000 })
     decide (t.sgu.shift = .stopping ∧ t.sgu.current = some .iii ∧ t.sgu.target = some .iv ∧
       t.evu.notices = [⟨.gearSettled, .spindle, 3, none⟩])) = true := by decide +kernel

theorem test_retryTimerExpiry_counts :
    (let t := after .retryTimerExpiry (geared { shifting with shift := .retryPause, retryTimer := some 9 })
     decide (t.sgu.shift = .stopping ∧ t.sgu.attempts = 2)) = true := by decide +kernel

theorem test_sensorTimerExpiry_settles :
    (let s := { geared { Sgu.reset with sensorTimer := some 50000 } with
      iou.inputs := Iou.reset.inputs.set 21 ⟨true, true, none⟩ }
     decide ((after .sensorTimerExpiry s).sgu.current = some .ii)) = true := by decide +kernel

/-! ## Coolant (4.9) -/

def cooled (through : CircuitRec) : State :=
  { running with
    cfg.coolant := workedCoolant, clu.circuit.through := through
    clu.pw0 := ⟨⟨16, 160⟩, ⟨16, 160⟩, true⟩ }

theorem test_primeTimerExpiry_no_pressure :
    (let t := after (.primeTimerExpiry .through) (cooled ⟨.priming, true, 10, some 2000000, none, none, none⟩)
     decide ((t.circuit .through).state = .faulted ∧ t.evu.urgent = [⟨.coolantFault, .circuit .through, 1, none⟩] ∧
       (t.axis .x).holds.coolantLoss = false)) = true := by decide +kernel

theorem test_lossTimerExpiry_holds_axes :
    (let t := after (.lossTimerExpiry .through) (cooled ⟨.running, true, 10, none, some 5150000, none, none⟩)
     decide (t.clu.pw0.staged = ⟨16, 0⟩ ∧ (t.axis .z).holds.coolantLoss = true ∧
       (t.axis .y).holds.coolantLoss = false ∧
       t.evu.urgent = [⟨.coolantFault, .circuit .through, 2, none⟩])) = true := by decide +kernel

theorem test_purgeTimerExpiry_ends_purge :
    (let t := after .purgeTimerExpiry (cooled ⟨.purging, false, 10, none, none, some 3000000, none⟩)
     decide ((t.circuit .through).state = .off ∧ airValveOn t = false)) = true := by decide +kernel

theorem test_periodStart_takes_staged :
    (after (.periodStart .pw0) { running with clu.pw0 := ⟨⟨16, 0⟩, ⟨16, 160⟩, false⟩ }).clu.pw0 =
      ⟨⟨16, 160⟩, ⟨16, 160⟩, true⟩ := by decide +kernel

theorem test_highPartEnd_goes_low :
    (after (.highPartEnd .pw0) { running with clu.pw0 := ⟨⟨16, 160⟩, ⟨16, 160⟩, true⟩ }).clu.pw0.high = false := by
  decide +kernel

/-! ## The pendant line (6.9) -/

/-- R118: the break, and a byte of even parity. -/
theorem test_characterReceived_marks :
    (after (.characterReceived 0 false false) running).pdu.rx = [⟨0, false, false, true, false, false⟩] ∧
      (after (.characterReceived 1 false true) running).pdu.rx = [⟨1, true, false, false, false, false⟩] := by
  decide +kernel

/-- 6.9: the FIFO is full at 32; the next byte is lost. -/
theorem test_characterReceived_full :
    (let t := after (.characterReceived 7 true true) { running with pdu.rx := List.replicate 32 (plainRx 7) }
     decide (t.pdu.rx.length = 32 ∧ t.pdu.overrun = true)) = true := by decide +kernel

/-- The body of a STATE report of sequence 1: count 4, Y, ×100, override 5, enable held (R204). -/
def reportBody : List Byte := [0x53, 1, 0, 0, 0, 4, 0, 2, 2, 5, 1, 0]

/-- The message around a body (R204): start byte, length, body, check byte. -/
def reportLine : List Byte := message (12#8 :: reportBody)

/-- 6.9: report n hands +1,000 to Y. -/
def handwheel : State :=
  { running with
    pdu.rx := reportLine.map plainRx, pdu.live := true, pdu.base := 65530, pdu.enable := true, pdu.lastSeq := some 0 }

theorem test_decodeInterval_hands_detents :
    (let t := after .decodeInterval handwheel
     decide ((t.axis .y).pendingInc = 1000 ∧ t.pdu.base = 4 ∧ t.pdu.pendantTimer = some 102000)) = true := by
  decide +kernel

/-- 6.9: losing the pendant while jogging Y, with message 7 SENT. -/
theorem test_pendantTimerExpiry_lost :
    (let t := after .pendantTimerExpiry { running with
      pdu.live := true, pdu.enable := true, pdu.axisSel := some .y, pdu.pendantTimer := some 100000
      pdu.mailbox := ⟨.sent, [65], 7, [], 7, none, true⟩ }
     decide (t.pdu.lost = true ∧ t.pdu.mailbox.state = .free ∧ (t.axis .b).holds.pendantLost = true ∧
       t.evu.urgent = [⟨.pendantLostEnabled, .pendant, 1, none⟩] ∧
       t.evu.notices = [⟨.displayUnacked, .pendant, 263, none⟩])) = true := by decide +kernel

theorem test_displayTimerExpiry_unacked :
    (after .displayTimerExpiry { running with pdu.mailbox := ⟨.sent, [65], 7, [], 7, some 9, true⟩ }).evu.notices =
      [⟨.displayUnacked, .pendant, 7, none⟩] := by decide +kernel

theorem test_ctsChange_starts_byte :
    (after (.ctsChange true) { running with pdu.tx := [1, 2], pdu.ledsPending := false }).pdu.sending = true ∧
      (after (.ctsChange false) { running with pdu.tx := [1, 2], pdu.ledsPending := false }).pdu.sending = false := by
  decide +kernel

theorem test_transmitByteDone_sends_next :
    (after .transmitByteDone { running with
      pdu.tx := [1, 2], pdu.sending := true, pdu.cts := true, pdu.ledsPending := false }).pdu.tx = [2] := by decide +kernel

theorem test_drainTimerExpiry_restarts_line :
    (let t := after .drainTimerExpiry { running with
      pdu.restarting := true, pdu.drainTimer := some 9, pdu.divisor := 1, pdu.rts := false }
     decide (t.pdu.restarting = false ∧ t.pdu.divisor = 2 ∧ t.pdu.rts = true)) = true := by decide +kernel

/-! ## The table store -/

def job (p : JobPhase) (bound : Timer) : Job := ⟨.table, .link, p, [2, 1, 0, 0, 1, 0, 7, 9], bound⟩

def storing (j : Job) : State := { standby with tbm.job := some j, tbm.cat.link.running := true }

/-- R185: a byte that the erase left is still there; the program phase follows. -/
theorem test_storePhaseEnd_erase :
    (let t := after (.storePhaseEnd [(3, 0)]) (storing (job .erase (some 5)))
     decide (t.tbm.job.map Job.phase = some .program ∧ memRead erased t.tbm.store 2051 = 0)) = true := by decide +kernel

/-- R185: a sound verify ends the job with STORE_DONE. -/
theorem test_storePhaseEnd_verified :
    (let s := storing (job .verify none)
     let t := after (.storePhaseEnd []) { s with tbm.store := memWriteList erased [] 2048 [2, 1, 0, 0, 1, 0, 7, 9] }
     decide (t.tbm.job = none ∧ t.evu.notices = [⟨.storeDone, .table 2, 2311, none⟩])) = true := by decide +kernel

/-- R183: programming the erased value leaves a byte as it is; an erased byte takes any value. -/
theorem test_programByte_keeps : programByte 0x12 0xFF = 0x12 ∧ programByte 0xFF 0x34 = 0x34 := by decide

theorem test_storePhaseTimeout_fails :
    (after (.storePhaseTimeout []) (storing (job .erase (some 5)))).evu.notices =
      [⟨.storeFailed, .table 2, 1, none⟩] := by decide +kernel

/-! ## Witnesses: a state and operands that meet the hypotheses of a statement together -/

/-- Everything a step keeps, in a state with much going on. -/
def busy : State :=
  { waiting .decodeInterval running with
    evu := ⟨[⟨.linkLost, .link, 1, none⟩], [⟨.key, .pendant, 3, some 4⟩], false, true⟩
    svr.queue := [⟨.axis .y, 3, 0, [1], true⟩], svr.pass.spindle := ⟨.outstanding, 5, 5, some 90, []⟩
    axes.x := { AxisRec.reset with sent := [(1, 0), (2, 0)] }
    tbm.store := [(7, 1), (9, 0)], tbm.staging := ⟨.filling, some .link, 3, [(2, 5)]⟩
    tbm.job := some (job .program (some 300000)) }

theorem step_stepped (s : State) (c : Instr) (rest : List Instr) (h : s.pending = c :: rest)
    (hc : ∀ u, exec c u = .next (after c u)) : step s = .next (stepped s) := by
  unfold stepped step
  rw [h]
  show exec c _ = .next (match exec c _ with
    | .next t => t
    | _ => s)
  rw [hc]

theorem decodeInterval_next (u : State) : exec .decodeInterval u = .next (after .decodeInterval u) := rfl

theorem busy_steps : step busy = .next (stepped busy) := step_stepped busy .decodeInterval [] rfl decodeInterval_next

theorem busy_perms : permsWf busy := ⟨by decide +kernel, fun a => by cases a <;> decide⟩

theorem busy_leds : ledsWf { busy with pdu.ledImage := ledImage busy } := by
  show _ = _
  decide +kernel

theorem witness_EmptyQueueLetsTimePass : running.pending = [] := rfl

/-- The timebase with nothing due, and with two expiries due together. -/
theorem witness_EmptyQueueLetsTimePass_due :
    dueExpiries running = [] ∧
      (dueExpiries { running with now := 2000, fsw.windowTimer := some 2000 }).length = 2 := by decide +kernel

theorem witness_StoreWrittenOnlyInJobSector :
    exec (.storePhaseEnd [(3, 0)]) (storing (job .erase (some 5))) =
        .next (after (.storePhaseEnd [(3, 0)]) (storing (job .erase (some 5)))) ∧
      (∀ j, (storing (job .erase (some 5))).tbm.job = some j → j.offset + j.image.length ≤ 2048) ∧
      ∀ j, (storing (job .erase (some 5))).tbm.job = some j → 2047 < j.address ∨ j.address + 2048 ≤ 2047 := by
  refine ⟨rfl, fun j h => ?_, fun j h => ?_⟩ <;> cases h <;> decide

theorem witness_StoreWrittenOnlyInJobSector_other :
    exec .loadEnd running = .next running ∧ (∀ l, Instr.loadEnd ≠ .coldReset l) ∧
      (∀ l, Instr.loadEnd ≠ .storePhaseEnd l) ∧ ∀ l, Instr.loadEnd ≠ .storePhaseTimeout l :=
  ⟨rfl, nofun, nofun, nofun⟩

theorem witness_MemoriesStayCanonicalAndFit : memoriesWf busy = true ∧ step busy = .next (stepped busy) :=
  ⟨by decide +kernel, busy_steps⟩

theorem witness_EventListsKeepTheirRules : busy.evu.wf = true ∧ step busy = .next (stepped busy) :=
  ⟨by decide +kernel, busy_steps⟩

theorem witness_PumpAndAirValveStayApart : coolantWf busy = true ∧ step busy = .next (stepped busy) :=
  ⟨by decide +kernel, busy_steps⟩

theorem witness_PumpAndGearShiftStayApart :
    pumpGearWf busy = true ∧ busy.sgu.purgeWait = false ∧ step busy = .next (stepped busy) :=
  ⟨by decide +kernel, rfl, busy_steps⟩

/-- The THROUGH pump on its output 0, and the output 1 of the gear shift. -/
theorem witness_PumpAndGearShiftStayApart_outputs :
    let s := { running with
      sgu.shift := .settled, clu.circuit.through.state := .running
      cfg.outputs := (Tables.default.outputs.set 0 ⟨.throughPump, false, 10, true⟩).set 1 ⟨.gearShift, false, 10, true⟩
      iou.outputs := Iou.reset.outputs.set 0 ⟨true, none⟩ }
    pumpGearWf s = true ∧ outputsFollow s ∧ (s.cfg.outputs[0]).owner = .throughPump ∧
      (s.cfg.outputs[1]).owner = .gearShift ∧ (s.iou.outputs[0]).on = true := by
  unfold outputsFollow
  decide +kernel

theorem witness_OwnedOutputsFollowFunctions :
    let s := waiting .purgeTimerExpiry { lamps with cfg.outputs := lamps.cfg.outputs.set 0 ⟨.airValve, false, 10, true⟩ }
    outputsFollow s ∧ step s = .next (stepped s) :=
  ⟨by unfold outputsFollow; decide +kernel, step_stepped _ .purgeTimerExpiry [] rfl fun _ => rfl⟩

theorem witness_RepliesKeepTheirRules : busy.svr.wf = true ∧ step busy = .next (stepped busy) :=
  ⟨by decide +kernel, busy_steps⟩

theorem witness_CompensationAndOverlayStayBounded : compWf busy = true ∧ step busy = .next (stepped busy) :=
  ⟨by decide +kernel, busy_steps⟩

theorem witness_CompensationAndOverlayStayBounded_overlay :
    let s := { busy with cfg.axis.x.overlayLimit := 50, axes.x.overlay := -50 }
    overlayWf s = true ∧ step s = .next (stepped s) :=
  ⟨by decide +kernel, step_stepped _ .decodeInterval [] rfl decodeInterval_next⟩

theorem witness_PermissionsAndLedsStayCurrent : permsWf busy ∧ step busy = .next (stepped busy) :=
  ⟨busy_perms, busy_steps⟩

theorem witness_PermissionsAndLedsStayCurrent_leds :
    let s := { busy with pdu.ledImage := ledImage busy }
    ledsWf s ∧ step s = .next (stepped s) :=
  ⟨busy_leds, step_stepped _ .decodeInterval [] rfl decodeInterval_next⟩

theorem witness_HoldsFollowTheirOwners :
    let s := waiting .decodeInterval { linkLost with
      axes.x := { AxisRec.reset with
        holds := { Holds.none with linkLost := true, fault := true }, fault := some ⟨.driveSilent, true, 0⟩ } }
    holdsWf s ∧ step s = .next (stepped s) :=
  ⟨fun a => by cases a <;> decide, step_stepped _ .decodeInterval [] rfl decodeInterval_next⟩

theorem witness_MemoriesStayCanonicalAndFit_images : imagesWf busy ∧ step busy = .next (stepped busy) := by
  refine ⟨⟨by decide, fun id => ?_, fun j h => ?_⟩, busy_steps⟩
  · cases id with
    | axisParams a | pitch a => cases a <;> decide
    | _ => decide
  · cases h
    decide

/-- A RESTART in the window of command frame 10. -/
def requested : State :=
  { standby with
    fsw.restart := .requested 10, fsw.lastSeq := some 10, fsw.windowTimer := some 1000
    fsw.window := some ⟨10, .all true, some (echoStatus standby)⟩ }

theorem witness_WarmResetDueOnlyAtRest :
    let s := waiting .windowTimerExpiry requested
    restartWf s = true ∧ step s = .next (stepped s) ∧ restartWf restarting = true :=
  ⟨by decide +kernel, step_stepped _ .windowTimerExpiry [] rfl fun _ => rfl, by decide⟩

/-! Resets and the load. -/

theorem witness_NotReadyUntilLoaded :
    State.reset.fsw.state = .reset ∧ running.fsw.state ≠ .reset := by decide

/-- Under loading a blank sector, and one that fails its check. -/
def loading : State :=
  { State.reset with fsw.state := .loading, tbm.store := memWriteList erased [] (2048 * tableIndex .gear) [1, 2, 3] }

theorem witness_NotReadyUntilLoaded_due :
    restarting.fsw.restart = .due ∧ loading.fsw.state = .loading := by decide

theorem witness_LoadEndActivatesStoredTables :
    running.fsw.state ≠ .loading ∧ loading.fsw.state = .loading ∧
      isBlank (sectorBytes loading.tbm.store (tableIndex .link)) = true ∧
      isBlank (sectorBytes loading.tbm.store (tableIndex .gear)) = false ∧
      checkImage .gear (sectorImage (sectorBytes loading.tbm.store (tableIndex .gear))) ≠ none := by decide +kernel

/-- The load ends under a pendant that is LIVE with its enable held: ABSENT, and no PENDANT_LOST (log 68). -/
theorem witness_LoadEndActivatesStoredTables_pendant :
    (let s := { loading with pdu := { Pdu.reset with live := true, enable := true, pendantTimer := some 100000 } }
     let t := after .loadEnd s
     decide (s.fsw.state = .loading ∧ t.fsw.state = .standby ∧ t.pdu.live = false ∧ t.pdu.lost = false ∧
       (t.axis .x).holds.pendantLost = false)) = true := by decide +kernel

/-- The identity image of revision 1 with an empty text (R191): header, then body. -/
def identityImage : List Byte :=
  let body : List Byte := [1, 0, 2, 0, 0, 0] ++ List.replicate 16 0x20
  [0x01, 1] ++ le16 body.length ++ le16 1 ++ le16 (crc16 body).toNat ++ body

theorem witness_WarmResetLeavesResetValues :
    (running.fsw.restart ≠ .due ∨ running.fsw.state ≠ .standby) ∧ restarting.fsw.restart = .due ∧
      restarting.fsw.state = .standby ∧ ∀ a, limitFault (after .warmReset restarting) a = none := by
  refine ⟨by decide, rfl, rfl, fun a => ?_⟩
  cases a <;> decide +kernel

theorem witness_ResetsClearTheServiceResponder :
    ((∃ l, Instr.coldReset [] = .coldReset l) ∨ (Instr.coldReset [] = .warmReset ∧ running.fsw.restart = .due ∧ running.fsw.state = .standby)) ∧
      ((∃ l, Instr.warmReset = .coldReset l) ∨
        (Instr.warmReset = .warmReset ∧ restarting.fsw.restart = .due ∧ restarting.fsw.state = .standby)) :=
  ⟨.inl ⟨[], rfl⟩, .inr ⟨rfl, rfl, rfl⟩⟩

/-! Command frames: every way through the tests of R143. -/

theorem witness_CommandFrameTests :
    standby.fsw.state = .standby ∧ standby.fsw.restart ≠ .due ∧
      checkedFrame (3, 72) ((frame 10).set 7 1) = none ∧
      checkedFrame (3, 72) (frame 10 ++ [0, 0]) = some (frame 10) := by decide +kernel

theorem witness_CommandFrameTests_settled : settledEvent (finish standby) ∧ (finish standby).fsw = standby.fsw := by
  unfold settledEvent
  decide +kernel

/-- The branches: a frame of another kind, and a duplicate. -/
theorem witness_CommandFrameTests_branches :
    (checkedFrame (3, 72) (returned 10 1 0)).isSome = true ∧ (returned 10 1 0).getD 0 0 ≠ 0x11#8 ∧
      { standby with fsw.lastSeq := some 10 }.fsw.lastSeq = some ((frame 10).getD 1 0) := by decide +kernel

/-- A service slot of 49 bytes is too long; one of 48 passes. -/
theorem witness_CommandFrameTests_slot :
    (testCommand (frame 10 (service := List.replicate 49 0)) = .malformed) ∧
      testCommand (frame 10 (service := List.replicate 48 0)) ≠ .malformed ∧
      testCommand (frame 10 (service := List.replicate 48 0)) ≠ .checkFails := by decide +kernel

theorem witness_NotReadyUntilLoaded_frame :
    State.reset.fsw.state = .reset ∧ checkedFrame (3, 72) (frame 10) ≠ none ∧ checkedFrame (3, 72) [] = none := by
  decide +kernel

theorem witness_AcceptedFrameOpensCycle :
    (testCommand (frame 10) = .passes (commandFields (frame 10))) ∧
      acceptedInCycle (frame 10) (commandFields (frame 10)) { standby with fsw.lastSeq := some 9 } := by
  unfold acceptedInCycle
  decide +kernel

theorem witness_AcceptedFrameOpensCycle_restart :
    requested.fsw.state = .standby ∧ requested.fsw.window = some ⟨10, .all true, some (echoStatus standby)⟩ ∧
      requested.fsw.restart = .requested 10 ∧ testCommand (frame 11) = .passes (commandFields (frame 11)) ∧
      requested.fsw.lastSeq ≠ some (commandFields (frame 11)).seq := by decide +kernel

theorem witness_AcceptedFrameSlotsTaken :
    acceptedInCycle (frame 10) (commandFields (frame 10)) lamps ∧ (commandFields (frame 10)).service = [] ∧
      (lamps.axis .x).pendingInc = 0 ∧ (lamps.axis .x).overlay.natAbs ≤ (lamps.cfg.axis.get .x).overlayLimit ∧
      (lamps.cfg.outputs[4]).owner = .general ∧ (lamps.cfg.outputs[4]).pulse = true := by
  unfold acceptedInCycle
  decide +kernel

/-- A pending increment of 1,000 on Y over an overlay limit of 600, with the pendant enabled. -/
def jogged : State := { handwheel with axes.y := { AxisRec.reset with pendingInc := 1000 }, cfg.axis.y.overlayLimit := 600 }

theorem witness_AcceptedFrameSlotsTaken_increment :
    acceptedInCycle (frame 10) (commandFields (frame 10)) jogged ∧ (commandFields (frame 10)).service = [] ∧
      ((after (.commandFrame (frame 10)) jogged).axis .y).fault = none ∧ pendantEnabled jogged = true ∧
      (jogged.axis .y).clamp = .free ∧ jogged.perms.handwheel = true ∧ jogged.cfg.interlock = [] ∧
      jogged.cfg.axis.y.overlayLimit < ((jogged.axis .y).overlay + (jogged.axis .y).pendingInc).natAbs ∧
      pendantEnabled running = false := by
  unfold acceptedInCycle
  decide +kernel

/-- Every circuit enabled, SETTLED in range II with the spindle at 1,500, and nothing running. -/
def spinning : State :=
  { cooled ⟨.off, false, 0, none, none, none, none⟩ with
    cfg.gear := workedGear, cfg.coolant.circuit.flood := ⟨true, some 31, 2000, 150⟩, tbm.cat.gear.status := .valid
    sgu := { Sgu.reset with shift := .settled, current := some .ii, actual := 6167 } }

/-- A frame that requests all three circuits. -/
def coolantAll : List Byte := frame 10 (coolant := [7, 3, 3])

/-- A frame that requests no circuit. -/
def coolantNone : List Byte := frame 10

theorem witness_FrameStartsAndStopsCoolant :
    acceptedInCycle coolantAll (commandFields coolantAll) spinning ∧ (commandFields coolantAll).service = [] ∧
      (∀ ci, (circuitTaken (commandFields coolantAll).coolant spinning ci).request = true ∧
        grantStands spinning (.coolant ci) ∧ (spinning.circuit ci).state = .off ∧
        (spinning.circuitCfg ci).enabled = true) ∧
      spinning.pdu.coolantStop = false ∧ spinning.inputOpt spinning.cfg.coolant.tankLow = false ∧
      spinning.sgu.purgeWait = false ∧ (commandFields coolantAll).spindle.request = 0 ∧
      inGear spinning = true ∧ spinning.cfg.coolant.unionMin ≤ throughSpeed spinning := by
  refine ⟨?_, by decide +kernel, fun ci => ?_, by decide +kernel⟩
  · unfold acceptedInCycle
    decide +kernel
  · unfold grantStands
    cases ci <;> decide +kernel

/-- THROUGH runs, then AIR: requested, not requested, and out of gear. -/
theorem witness_FrameStartsAndStopsCoolant_on :
    let s := { spinning with clu.circuit.through.state := .running }
    let u := { spinning with clu.circuit.air.state := .running }
    acceptedInCycle coolantNone (commandFields coolantNone) s ∧ (commandFields coolantNone).service = [] ∧
      (s.circuit .through).state.on = true ∧ (u.circuit .air).state.on = true ∧ (u.circuit .through).state = .off ∧
      (circuitTaken (commandFields coolantNone).coolant s .through).request = false ∧
      (circuitTaken (commandFields coolantAll).coolant u .air).request = true ∧ grantStands u (.coolant .air) ∧
      inGear s = true ∧ inGear { s with sgu.shift := .unknown } = false ∧
      { s with pdu.coolantStop := true }.pdu.coolantStop = true := by
  unfold acceptedInCycle grantStands
  decide +kernel

/-- COOLANT_FLOOD is withdrawn by an input; THROUGH is PURGING, FAULTED and disabled. -/
theorem witness_FrameStartsAndStopsCoolant_denied :
    let s := { spinning with cfg.interlock := [⟨.coolant .flood, false, [⟨.input 40, true⟩]⟩], perms.coolant.flood := false }
    denialStands s (.coolant .flood) ∧
      ({ s with clu.circuit.through.state := .purging }.circuit .through).state = .purging ∧
      ({ s with clu.circuit.through.state := .faulted }.circuit .through).state = .faulted ∧
      ({ s with cfg.coolant := CoolantTable.default }.circuitCfg .through).enabled = false := by
  unfold denialStands
  decide +kernel

/-- A frame that requests range III and clamps W. -/
def shiftAndClamp : List Byte := frame 10 (spindle := [0, 0, 0, 3]) (w := { control := 2 })

/-- The clamp of W on inputs 1 and 2. -/
def clamping (st : ClampState) : State :=
  { spinning with cfg.axis.w.clamp := some ⟨1, 2, 100⟩, axes.w := { AxisRec.reset with clamp := st } }

theorem witness_FrameShiftsAndClamps :
    let s := clamping .free
    let c := commandFields shiftAndClamp
    acceptedInCycle shiftAndClamp c s ∧ c.service = [] ∧ s.sgu.purgeWait = false ∧
      Gear.ofNumber c.spindle.request = some .iii ∧ c.spindle.request ≠ s.sgu.lastRequest ∧
      s.isValid .gear = true ∧ s.sgu.shift = .settled ∧ s.sgu.current ≠ some .iii ∧ grantStands s .gearShift ∧
      (c.axis.get .w).slot.clampRequest = true ∧ (s.cfg.axis.get .w).clamp = some ⟨1, 2, 100⟩ ∧
      (s.axis .w).clamp = .free ∧ ((after (.commandFrame shiftAndClamp) s).axis .w).follower = .disabled ∧
      (s.cfg.axis.get .x).clamp = none ∧ (s.axis .x).clamp = .free := by
  unfold acceptedInCycle grantStands
  decide +kernel

/-- GEAR_SHIFT withdrawn by an input; a shift that waits for it; the other gear records. -/
theorem witness_FrameShiftsAndClamps_denied :
    let s := { spinning with cfg.interlock := [⟨.gearShift, false, [⟨.input 40, true⟩]⟩], perms.gearShift := false }
    denialStands s .gearShift ∧ { s with sgu.shift := .awaitPermit }.sgu.shift = .awaitPermit ∧
      { s with sgu.shift := .unknown }.sgu.purgeWait = false ∧ { s with sgu.shift := .failed }.sgu.purgeWait = false ∧
      { s with sgu.current := some .iii }.sgu.current = some .iii := by
  unfold denialStands
  decide +kernel

/-- CLAMPED without a request, with UNCLAMP granted and withdrawn; and CLAMPING. -/
theorem witness_FrameShiftsAndClamps_opens :
    let s := clamping .clamped
    acceptedInCycle coolantNone (commandFields coolantNone) s ∧ (s.axis .w).clamp = .clamped ∧
      ((commandFields coolantNone).axis.get .w).slot.clampRequest = false ∧ grantStands s (.unclamp .w) ∧
      denialStands { s with cfg.interlock := [⟨.unclamp .w, false, [⟨.input 40, true⟩]⟩], perms.unclamp.w := false }
        (.unclamp .w) ∧
      ((clamping .clamping).axis .w).clamp = .clamping := by
  unfold acceptedInCycle grantStands denialStands
  decide +kernel

/-- W stands HELD with a clamp request, its part formed under a clamp timeout of 100 ms, and a copy with 900 ms has come
into use since. -/
def swapped : State :=
  { running with
    cfg.axis.w.clamp := some ⟨1, 2, 900⟩
    axes.w := { AxisRec.reset with
      follower := .held, enableFwd := true, slot := ⟨0, true, true, false⟩, frameClamp := some ⟨1, 2, 100⟩ } }

/-- R17: the end of the frame uses the copy of its part; R39: a copy without a clamp leaves the axis FREE (log 56). -/
theorem test_frame_end_keeps_copy :
    (let u := (axisFrameEnd .w swapped).axis .w
     decide (u.clamp = .clamping ∧ u.clampTimer = some 100000 ∧
       ((axisFrameEnd .w { swapped with cfg.axis.w.clamp := none }).axis .w).clamp = .free)) = true := by decide +kernel

/-- Every case of the end of a frame: copies with a clamp, without one in either, and a request withdrawn. -/
theorem witness_FrameShiftsAndClamps_end :
    (swapped.axis .w).frameClamp = some ⟨1, 2, 100⟩ ∧ (swapped.cfg.axis.get .w).clamp = some ⟨1, 2, 900⟩ ∧
      (swapped.axis .w).clamp = .free ∧ ((axisFrameEnd .w swapped).axis .w).follower = .held ∧
      (swapped.axis .w).slot.clampRequest = true ∧ (swapped.axis .x).frameClamp = none ∧
      (swapped.cfg.axis.get .x).clamp = none := by decide +kernel

/-- R153: station 6, stale at the last close, has returned in the open self-paced window; the echo still shows it stale,
with the mark itself clear (R56). Byte 102 is the last of the spindle status (R202). -/
theorem test_linkLost_echo_keeps_stale :
    (let s := openWindow 7 (.all false) { linkLost with sgu := { Sgu.reset with stale := true, closedStale := true } }
     let t := after (.commandFrame (frame 200)) (after (.driveReturn (returned 7 6 0)) s)
     decide (t.sgu.stale = false ∧ t.fsw.cPort.last.map (fun l => bitAt l 102 1) = some true)) = true := by
  decide +kernel

theorem witness_LinkLostFrameEchoedAtOnce :
    linkLost.fsw.state = .linkLost ∧ linkLost.fsw.restart ≠ .due ∧
      testCommand (frame 200) = .passes (commandFields (frame 200)) ∧
      linkLost.fsw.lastSeq ≠ some (commandFields (frame 200)).seq ∧ (commandFields (frame 200)).service = [] := by
  decide +kernel

/-- A self-paced frame leaves. -/
theorem witness_TargetIsSetpointPlusOverlay :
    let s := { linkLost with fsw.periodTimer := some 7 }
    exec .periodTimerExpiry s = .next (after .periodTimerExpiry s) ∧ frameSent s (after .periodTimerExpiry s) := by
  unfold frameSent
  exact ⟨rfl, by decide +kernel⟩

/-- X in motion between two self-paced frames, referenced, with FEED_HOLD; Y at rest with its clamp closed. -/
def moving : State :=
  { linkLost with
    fsw.periodTimer := some 7, tbm.cat := .all { CatEntry.reset with status := .valid }
    axes.x := { AxisRec.reset with
      follower := .tracking, enableFwd := true, f := 900, s := 40, referenced := true, returned := true
      holds := { Holds.none with linkLost := true, feedHold := true }
      slot := ⟨2000, true, false, true⟩ }
    axes.y := { AxisRec.reset with
      follower := .held, enableFwd := true, clamp := .clamped, returned := true, slot := ⟨0, true, true, false⟩ }
    cfg.axis.x := { AxisParams.default with vmax := 50, amax := 10, dmax := 10, softMin := -1000, softMax := 1000 }
    cfg.axis.y.clamp := some ⟨1, 2, 100⟩ }

theorem witness_MotionStaysInEnvelope :
    let p := moving.cfg.axis.x
    let r := moving.axis .x
    let t := after .periodTimerExpiry moving
    exec .periodTimerExpiry moving = .next t ∧ frameSent moving t ∧ t.cfg = moving.cfg ∧
      0 < p.amax ∧ 0 < p.dmax ∧ p.vsetup ≤ p.vmax ∧ r.motionWf p .x = true ∧ r.enableFwd = true ∧
      (t.axis .x).enableFwd = true ∧ (t.axis .x).follower = .holding ∧ windowed .x r.referenced = true ∧
      windowed .x (t.axis .x).referenced = true ∧ noRequest .periodTimerExpiry = true ∧ r.holds.feedHold = true := by
  unfold frameSent
  exact ⟨rfl, by decide +kernel⟩

theorem witness_MotionStaysInEnvelope_clamped :
    let p := moving.cfg.axis.y
    let t := after .periodTimerExpiry moving
    0 < p.amax ∧ 0 < p.dmax ∧ p.vsetup ≤ p.vmax ∧ (moving.axis .y).motionWf p .y = true ∧
      (moving.axis .y).enableFwd = true ∧ (t.axis .y).enableFwd = true ∧ (moving.axis .y).clamp ≠ .free ∧
      (t.axis .y).clamp ≠ .free := by decide +kernel

/-- Range II settled and a spindle slot of 1,500 rev/min. -/
def turning (g : Sgu) : State :=
  { geared { g with returned := true } with tbm.cat.gear.status := .valid, perms := .all true }

def settledII : Sgu := { Sgu.reset with shift := .settled, current := some .ii }

/-- A frame with a spindle slot: 1,500 rev/min, enable in bit 1 (R202). -/
def spindleFrame10 : List Byte := frame 10 (spindle := le16 1500 ++ [2, 0])

theorem witness_SpindleDemandAndEnable :
    let c := Instr.commandFrame spindleFrame10
    let s := turning settledII
    let t := after c s
    exec c s = .next t ∧ frameSent s t ∧ t.sgu.enableFwd = true ∧ noRequest c = true ∧ t.sgu.shift = .settled ∧
      settledRange s = some ⟨21, 400, 2500, 37, 9, 150, [9]⟩ ∧ t.fsw.state = .running ∧ t.sgu.slot.enable = true ∧
      s.pdu.spindleStop = false ∧ s.perms.spindleRun = true ∧ s.cfg.interlock = [] ∧ s.isValid .gear = true ∧
      t.sgu.fault = none ∧ s.sgu.returned = true := by
  unfold frameSent
  exact ⟨rfl, by decide +kernel⟩

/-- Without an enable in the slot, in SHIFTING, and in CREEPING. -/
theorem witness_SpindleDemandAndEnable_others :
    let c := Instr.commandFrame (frame 10)
    frameSent (turning settledII) (after c (turning settledII)) ∧ noRequest c = true ∧
      (after c (turning settledII)).sgu.enableFwd = false ∧ (after c (turning settledII)).sgu.slot.enable = false ∧
      frameSent (turning shifting) (after c (turning shifting)) ∧
      frameSent (turning { shifting with shift := .creeping }) (after c (turning { shifting with shift := .creeping })) :=
  by
  unfold frameSent
  decide +kernel

theorem witness_DriveFrameCarriesDemands :
    let s := { linkLost with fsw.periodTimer := some 7, svr.pass.axis.w := ⟨.awaitingFrame, 17, 5, none, [17, 1, 0]⟩ }
    exec .periodTimerExpiry s = .next (after .periodTimerExpiry s) ∧ frameSent s (after .periodTimerExpiry s) ∧
      ((svrAtFrame .periodTimerExpiry s).pass.get (.axis .w)).phase = .awaitingFrame ∧
      noRequest .periodTimerExpiry = true := by
  unfold frameSent
  exact ⟨rfl, by decide +kernel, rfl, rfl⟩

/-- A frame that brings a request to station 4. -/
theorem witness_DriveFrameCarriesDemands_request :
    let c := Instr.commandFrame (frame 10 (service := [4, 5, 7, 1, 9]))
    let s := { running with fsw.lastSeq := some 9 }
    exec c s = .next (after c s) ∧ frameSent s (after c s) ∧ noRequest c = false ∧
      ((svrAtFrame c s).pass.get (.axis .w)).phase = .awaitingFrame := by
  unfold frameSent
  exact ⟨rfl, by decide +kernel⟩

theorem witness_FramesSentPassTheCheck :
    (∀ r, busy.svr.chosen 10 = some r → r.bytes.length ≤ 44) ∧ ∀ st, (segmentFor busy.svr st).length ≤ 43 := by
  constructor
  · intro r h
    have e : busy.svr.chosen 10 = some ⟨[3, 2, 0, 1, 1], true⟩ := by decide +kernel
    rw [e] at h
    cases h
    decide
  · intro st
    cases st with
    | axis a => cases a <;> decide +kernel
    | spindle => decide +kernel

/-! Returns. -/

def seg : List Byte := [17, 0, 1, 9]

theorem witness_AxisReturnTaken :
    let s := openWindow 41 (.all false) running
    testReturn (returned 41 1 1319742) = some ⟨41, .axis .x, 1319742, 1, 0, none⟩ ∧
      s.fsw.window = some ⟨41, .all false, none⟩ ∧ (PerStation.all false).get (.axis .x) = false ∧
      Station.spindle ≠ .axis .x ∧ (PerStation.all false).get .spindle = false := by decide +kernel

/-- The last return of the window. -/
theorem witness_AxisReturnTaken_last :
    let taken : PerStation Bool := ⟨⟨false, true, true, true, true⟩, true⟩
    (openWindow 41 taken running).fsw.window = some ⟨41, taken, none⟩ ∧ taken.get (.axis .x) = false ∧
      ∀ st, st ≠ .axis .x → taken.get st = true := by
  refine ⟨rfl, rfl, fun st h => ?_⟩
  cases st with
  | spindle => rfl
  | axis a => cases a <;> first | rfl | exact absurd rfl h

theorem witness_SpindleReturnTaken :
    let taken : PerStation Bool := ⟨.all true, false⟩
    let s := openWindow 41 taken (geared { shifting with shift := .stopping, stopTimer := some 5 })
    testReturn (returned 41 6 18) = some ⟨41, .spindle, 18, 1, 0, none⟩ ∧ s.fsw.window = some ⟨41, taken, none⟩ ∧
      taken.get .spindle = false ∧ s.sgu.shift = .stopping ∧
      ((18 : Int).natAbs ≤ s.cfg.gear.stopThreshold) := by decide +kernel

theorem witness_SpindleReturnTaken_last :
    let taken : PerStation Bool := ⟨.all true, false⟩
    ∀ st, st ≠ .spindle → taken.get st = true := by
  intro taken st h
  cases st with
  | spindle => exact absurd rfl h
  | axis a => cases a <;> rfl

theorem witness_ReturnDiscarded :
    ∀ r w, testReturn (returned 41 4 0) = some r → (openWindow 42 (.all false) running).fsw.window = some w →
      r.seq ≠ w.seq ∨ w.taken.get r.station = true := by
  intro r w h k
  have e : testReturn (returned 41 4 0) = some ⟨41, .axis .w, 0, 1, 0, none⟩ := by decide +kernel
  rw [e] at h
  cases h
  cases k
  decide

/-- A reply segment to the request in flight with its tag. -/
theorem witness_PassThroughAnswered :
    let s := openWindow 41 (.all false) { running with svr.pass.axis.w := ⟨.outstanding, 17, 5, some 5000, []⟩ }
    testReturn (returned 41 4 0 (segment := seg)) = some ⟨41, .axis .w, 0, 1, 0, some ⟨17, 0, [9]⟩⟩ ∧
      s.fsw.window = some ⟨41, .all false, none⟩ ∧ (PerStation.all false).get (.axis .w) = false ∧
      Station.spindle ≠ .axis .w ∧ (PerStation.all false).get .spindle = false ∧
      (s.svr.pass.get (.axis .w)).phase = .outstanding := by decide +kernel

/-! Timers of the cycle path. -/

theorem witness_WindowTimerClosesWindow :
    (openWindow 41 (.all false) running).fsw.windowTimer = some 1000 ∧
      (openWindow 41 (.all false) running).fsw.window = some ⟨41, .all false, none⟩ := by decide

theorem witness_PeriodTimerSendsFrame : { linkLost with fsw.periodTimer := some 7 }.fsw.periodTimer = some 7 := rfl

theorem witness_LinkTimerEntersLinkLost :
    let s := { lamps with fsw.linkTimer := some 3000, sgu.shift := .awaitPermit }
    s.fsw.linkTimer = some 3000 ∧ s.fsw.state = .running ∧ s.sgu.shift = .awaitPermit ∧
      (s.cfg.outputs[3]).owner = .general := by decide +kernel

theorem witness_LinkTimerEntersLinkLost_restart :
    let s := { requested with fsw.linkTimer := some 3000 }
    s.fsw.linkTimer = some 3000 ∧ s.fsw.state = .standby ∧ restartWf s = true ∧ s.fsw.restart ≠ .none ∧
      lamps.fsw.restart = .none := by decide +kernel

theorem witness_RestTimerEntersStandby :
    { linkLost with fsw.restTimer := some 5 }.fsw.restTimer = some 5 ∧ linkLost.fsw.state = .linkLost := ⟨rfl, rfl⟩

theorem witness_PassThroughAnswered_timer :
    ({ running with svr.pass.axis.w := ⟨.outstanding, 17, 5, some 5000, []⟩ }.svr.pass.get (.axis .w)).timer =
      some 5000 := rfl

/-! Inputs, outputs, clamps. -/

/-- Input 7 is the positive limit of X, urgent, without a debounce time. -/
def limited : State :=
  { running with
    cfg.axis.x.posLimit := some 7, cfg.inputs.inputs := InputsTable.default.inputs.set 7 ⟨false, 0, .urgentActive⟩ }

theorem witness_InputsConditioned :
    (limited.iou.inputs[7]).raw ≠ true ∧ (inputCfg limited 7).debounce = 0 ∧ presented (inputCfg limited 7) true ≠ limited.input 7 ∧
      (door.iou.inputs[5]).raw ≠ false ∧ (inputCfg door 5).debounce ≠ 0 ∧ (door.iou.inputs[5]).raw = true := by
  decide +kernel

theorem witness_InputsConditioned_timer :
    (({ door with iou.inputs := door.iou.inputs.set 5 ⟨false, true, some 29000⟩ } : State).iou.inputs[5]).timer =
      some 29000 := by decide +kernel

/-- Consumers of one input each: 1 the clamp confirm of W, 20 the sensor of range I, 30 the switch of THROUGH, 31 the
tank-low input. -/
def consumers : State :=
  { cooled ⟨.running, true, 10, none, none, none, none⟩ with
    cfg.gear := workedGear, cfg.axis.w.clamp := some ⟨1, 2, 100⟩, cfg.coolant.tankLow := some 31
    sgu := { shifting with target := some .i }
    axes.w := { AxisRec.reset with clamp := .clamping, clampOut := true, clampTimer := some 100000 }
    cfg.inputs.inputs := Vector.replicate 48 ⟨false, 0, .none⟩ }

theorem witness_InputsConditioned_consumers :
    (∀ n : Fin 48, n ∈ ([1, 20, 30, 31] : List (Fin 48)) →
      (consumers.iou.inputs[n]).raw ≠ true ∧ (inputCfg consumers n).debounce = 0 ∧
        presented (inputCfg consumers n) true ≠ consumers.input n) ∧
      consumers.cfg.axis.w.clamp = some ⟨1, 2, 100⟩ ∧ consumers.cfg.axis.w.posLimit ≠ some 1 ∧
      consumers.cfg.axis.w.negLimit ≠ some 1 ∧ (consumers.axis .w).clamp = .clamping ∧
      (∃ r, consumers.cfg.gear.ranges = some r ∧ r.sensor .i = 20 ∧ ∀ g', r.sensor g' = 20 → g' = .i) ∧
      (consumers.circuitCfg .through).switch = some 30 ∧
      (∀ c', (consumers.circuitCfg c').switch = some 30 → c' = .through) ∧
      consumers.cfg.coolant.tankLow = some 31 ∧ (∀ c, (consumers.circuitCfg c).switch ≠ some 31) ∧
      (consumers.circuit .through).state.on = true := by
  refine ⟨by decide +kernel, rfl, by decide, by decide, rfl, ⟨_, rfl, rfl, fun g' h => ?_⟩, rfl, fun c' h => ?_, rfl,
    fun c => ?_, rfl⟩
  · cases g' <;> first | rfl | exact absurd h (by decide)
  · cases c' <;> first | rfl | exact absurd h (by decide)
  · cases c <;> decide

theorem witness_ClampAndPulseTimers :
    ({ running with axes.w := { AxisRec.reset with clampTimer := some 4 } }.axis .w).clampTimer = some 4 := rfl

theorem witness_ClampAndPulseTimers_pulse :
    let s := { lamps with iou.outputs := Iou.reset.outputs.set 4 ⟨true, some 3⟩ }
    (s.iou.outputs[4]).timer = some 3 ∧ (s.cfg.outputs[4]).owner = .general := by decide +kernel

/-! Gear shift. -/

theorem witness_StopMeshAndCreepTimers :
    { Sgu.reset with stopTimer := some 5 }.stopTimer = some 5 ∧ shifting.meshTimer = some 940000 ∧
      { shifting with shift := .creeping, creepTimer := some 7 }.creepTimer = some 7 := by decide

theorem witness_AttemptAndRetryTimers :
    (geared shifting).sgu.attemptTimer = some 2140000 ∧
      (geared shifting).sgu.attempts < (geared shifting).cfg.gear.maxAttempts ∧
      ¬ (geared { shifting with attempts := 3 }).sgu.attempts < (geared shifting).cfg.gear.maxAttempts := by decide

def confirming : Sgu := { shifting with shift := .confirming, confirmTimer := some 1440000 }

theorem witness_ConfirmTimerEndsShift :
    let s := geared confirming
    s.sgu.confirmTimer = some 1440000 ∧ s.sgu.shift = .confirming ∧ s.sgu.target = some .iii ∧
      (gears.all fun g' => !sensorActive s g' || decide (g' = .iii)) = true ∧
      s.sgu.pendingTarget = some .iv ∧ Gear.iv ≠ .iii := by decide +kernel

/-- Another sensor is active at the last attempt. -/
theorem witness_ConfirmTimerEndsShift_conflict :
    let s := { geared { confirming with attempts := 3 } with iou.inputs := Iou.reset.inputs.set 20 ⟨true, true, none⟩ }
    s.sgu.confirmTimer = some 1440000 ∧ s.sgu.shift = .confirming ∧ s.sgu.target = some .iii ∧
      (gears.all fun g' => !sensorActive s g' || decide (g' = .iii)) = false ∧
      s.cfg.gear.maxAttempts ≤ s.sgu.attempts := by decide +kernel

theorem witness_AttemptAndRetryTimers_retry :
    let s := geared { shifting with shift := .retryPause, retryTimer := some 9 }
    s.sgu.retryTimer = some 9 ∧ s.sgu.shift = .retryPause ∧ s.perms = evalPerms s ∧ s.perms.gearShift = true := by
  decide +kernel

/-- GEAR_SHIFT withdrawn while no pendant is enabled. -/
def barred (s : State) : State :=
  { s with cfg.interlock := [⟨.gearShift, false, [⟨.pendantEnabled, true⟩]⟩], perms.gearShift := false }

theorem witness_AttemptAndRetryTimers_waits :
    let s := barred (geared { shifting with shift := .retryPause, retryTimer := some 9 })
    s.sgu.retryTimer = some 9 ∧ s.sgu.shift = .retryPause ∧ s.perms = evalPerms s ∧ s.perms.gearShift = false := by
  decide +kernel

theorem witness_SensorTimerResolvesGear :
    let s := { geared { Sgu.reset with sensorTimer := some 50000 } with
      iou.inputs := Iou.reset.inputs.set 21 ⟨true, true, none⟩ }
    s.sgu.sensorTimer = some 50000 ∧ s.sgu.shift = .unknown ∧ onlyGear s = some .ii ∧ s.sgu.pendingTarget = none := by
  decide +kernel

theorem witness_SensorTimerResolvesGear_lost :
    let s := geared { Sgu.reset with shift := .settled, current := some .ii, sensorTimer := some 50000 }
    s.sgu.sensorTimer = some 50000 ∧ s.sgu.shift = .settled ∧ gearLostCond s = true := by decide +kernel

/-! Coolant. -/

theorem witness_CoolantTimersAndPulses :
    ((cooled ⟨.priming, true, 10, some 5, none, none, none⟩).circuit .through).primeTimer = some 5 ∧
      ((cooled ⟨.running, true, 10, none, some 5, none, none⟩).circuit .through).lossTimer = some 5 ∧
      ((cooled ⟨.purging, true, 10, none, none, some 5, none⟩).circuit .through).purgeTimer = some 5 ∧
      (cooled ⟨.running, true, 10, none, some 5, none, none⟩).cfg.coolant.holdMask.get .x = true := by decide +kernel

/-! The pendant line. -/

theorem witness_DecodeIntervalTakesBytes :
    handwheel.pdu.restarting = false ∧ handwheel.pdu.rx ≠ [] ∧ running.pdu.rx = [] ∧
      { running with pdu.restarting := true }.pdu.restarting = true := by decide +kernel

theorem witness_DecodeIntervalTakesBytes_byte :
    let s := { running with pdu.rx := [plainRx 0x53], pdu.decoder := ⟨.check, 12, reportBody⟩ }
    s.pdu.restarting = false ∧ s.pdu.rx = [plainRx 0x53] ∧ (plainRx 0x53).marked = false ∧
      byteSum (12#8 :: reportBody ++ [0x53#8]) ≠ 0 := by decide +kernel

theorem witness_StateReportTaken :
    handwheel.pdu.restarting = false ∧ handwheel.pdu.decoder.state = .hunt ∧
      parseReport reportBody = some ⟨1, 0, 4, some .y, .x100, 5, true, 0⟩ ∧ reportBody.length = 12 ∧
      reportBody.getD 0 0 = 0x53#8 ∧ (handwheel.pdu.rx.map RxByte.data) = message (12#8 :: reportBody) ∧
      (∀ b ∈ handwheel.pdu.rx, b.marked = false) ∧ handwheel.pdu.live = true ∧
      handwheel.pdu.lastSeq ≠ some 1 := by decide +kernel

theorem witness_StateReportTaken_repeat :
    { handwheel with pdu.lastSeq := some 1 }.pdu.live = true ∧
      { handwheel with pdu.lastSeq := some 1 }.pdu.lastSeq = some 1 := by decide +kernel

/-- The first report of an ABSENT pendant, and one that acknowledges the message that is SENT. -/
theorem witness_StateReportTaken_absent :
    let m : Mailbox := ⟨.sent, [65], 0, [], 0, some 9, true⟩
    let s := { handwheel with
      pdu.live := false, pdu.mailbox := m, pdu.rx := reportLine.map fun b => { plainRx b with afterOut := true } }
    s.pdu.live = false ∧ s.pdu.mailbox.state = .sent ∧ s.pdu.mailbox.out = true ∧
      s.pdu.rx.getLast?.map RxByte.afterOut = some true ∧ (∀ b ∈ s.pdu.rx, b.marked = false) := by decide +kernel

theorem witness_PendantAndDisplayTimers :
    let s := { running with pdu.mailbox := ⟨.sent, [65], 7, [], 7, some 9, true⟩, pdu.pendantTimer := some 9 }
    s.pdu.mailbox.timer = some 9 ∧ s.pdu.mailbox.state = .sent ∧ s.pdu.pendantTimer = some 9 := by decide

theorem witness_LineBytesTakenAndSent :
    running.pdu.restarting = false ∧ running.pdu.mailbox.state ≠ .filled := by decide

theorem witness_LineBytesTakenAndSent_restart :
    let s := { running with pdu.restarting := true, pdu.drainTimer := some 9, pdu.sending := true, pdu.tx := [1, 2] }
    s.pdu.restarting = true ∧ s.pdu.drainTimer = some 9 ∧ s.pdu.sending = true ∧ ¬ s.pdu.tx.length ≤ 1 := by decide

/-! The table store and the requests. -/

theorem witness_StorePhases :
    (storing (job .erase (some 5))).tbm.job = some (job .erase (some 5)) ∧ memoriesWf (storing (job .erase (some 5))) = true ∧
      (storing (job .program (some 5))).tbm.job = some (job .program (some 5)) ∧
      (storing (job .verify none)).tbm.job = some (job .verify none) := by decide +kernel

/-- A verify that reads back the image, and one that does not. -/
theorem witness_StorePhases_verify :
    let j := job .verify none
    verified j (readBack j [] (memWriteList erased [] 2048 [2, 1, 0, 0, 1, 0, 7, 9])) = true ∧
      verified j (readBack j [(7, 0)] (memWriteList erased [] 2048 [2, 1, 0, 0, 1, 0, 7, 9])) = false := by
  decide +kernel

/-- A byte of the sector that is not erased as the program phase begins. -/
theorem witness_StorePhases_program :
    let s := { storing (job .program (some 5)) with tbm.store := [(2051, 7#8)] }
    memoriesWf s = true ∧ memRead erased s.tbm.store ((job .program (some 5)).address + 3) ≠ 0xFF#8 ∧
      memRead erased s.tbm.store ((job .program (some 5)).address + 4) = 0xFF#8 := by decide +kernel

theorem witness_StorePhases_timeout :
    (storing (job .erase (some 5))).tbm.job = some (job .erase (some 5)) ∧ (job .erase (some 5)).bound = some 5 := by
  decide

theorem witness_StagingRequests :
    let params : List Byte := 0x02 :: le16 2043 ++ [1, 2, 3, 4, 0]
    memoriesWf busy = true ∧ 4 ≤ params.length ∧ params.length ≤ 40 ∧ tableOfByte (byteAt params 0) = some .link ∧
      (busy.entry .link).freeze = false ∧ busy.tbm.staging.owner = some .link ∧
      u16At params 1 + (params.length - 3) ≤ 2048 := by decide +kernel

theorem witness_StagingRequests_refused :
    let params : List Byte := 0x02 :: le16 0 ++ [1]
    let s := { busy with tbm.cat.link.freeze := true }
    tableOfByte (byteAt params 0) = some .link ∧ (s.entry .link).freeze = true ∧ busy.tbm.staging.state ≠ .empty ∧
      busy.tbm.staging.owner ≠ some .gear ∧ (busy.entry .gear).freeze = false ∧
      tableOfByte (0x30#8).toNat = some .gear ∧ running.tbm.staging.state = .empty ∧ running.tbm.staging.fill = 0 := by
  decide +kernel

/-- STAGE_WRITE of 3 and of 41 bytes, of an unknown table, and of data that ends beyond 2,048. -/
theorem witness_StagingRequests_range :
    ([0x02, 0, 0] : List Byte).length < 4 ∧ 40 < (List.replicate 41 (0x02 : Byte)).length ∧
      tableOfByte (byteAt [0x99, 0, 0, 1] 0) = none ∧
      (let params : List Byte := 0x02 :: le16 2047 ++ [1, 2]
       4 ≤ params.length ∧ params.length ≤ 40 ∧ tableOfByte (byteAt params 0) = some .link ∧
         2048 < u16At params 1 + (params.length - 3)) := by decide +kernel

/-- A link image (R156): header, then body. -/
def linkImage : List Byte :=
  let body : List Byte := le16 1000 ++ [3, 3] ++ le16 50 ++ le16 1000
  [0x02, 1] ++ le16 body.length ++ le16 5 ++ le16 (crc16 body).toNat ++ body

/-- The link image staged and CHECKED. -/
def staged : State :=
  { standby with tbm.staging := ⟨.checked, some .link, linkImage.length, memWriteList 0 [] 0 linkImage⟩ }

theorem witness_StagingRequests_check :
    tableOfByte (0x02#8).toNat = some .link ∧ staged.tbm.staging.owner = some .link ∧
      checkImage .link (memReadList 0 staged.tbm.staging.bytes 0 staged.tbm.staging.fill) = none ∧
      checkImage .link (memReadList 0 running.tbm.staging.bytes 0 0) = some 0 := by decide +kernel

theorem witness_ActivateTaken :
    tableOfByte (0x02#8).toNat = some .link ∧ (staged.entry .link).freeze = false ∧
      (staged.entry .link).running = false ∧ staged.tbm.staging.state = .checked ∧
      staged.tbm.staging.owner = some .link := by decide +kernel

theorem witness_ActivateTaken_refused :
    ({ staged with tbm.cat.link.freeze := true }.entry .link).freeze = true ∧
      ({ staged with tbm.cat.link.running := true }.entry .link).running = true ∧
      ¬ (standby.tbm.staging.state = .checked ∧ standby.tbm.staging.owner = some .link) := by decide

/-- In STANDBY at rest every image may be taken for every table. -/
theorem witness_ActivateTaken_allowed (id : TableId) (image : List Byte) :
    mayTake id (installTable id image staged.cfg) staged := by
  have all (a : Axis) : staged.axis a = AxisRec.reset := by cases a <;> rfl
  have off : ∀ c, (staged.circuit c).state = .off := by intro c; cases c <;> rfl
  cases id <;> simp only [mayTake, all]
  case axisParams a => exact ⟨.inr rfl, rfl, Nat.zero_le _, nofun, nofun⟩
  all_goals first
    | exact off
    | exact ⟨fun _ => .inr rfl, by decide, off⟩
    | exact ⟨⟨fun _ => .inr rfl, by decide, off⟩, fun _ => .inl rfl⟩
    | decide

/-- Nothing at rest: no table but the identity may change. -/
theorem witness_ActivateTaken_notNow (id : TableId) (new : Tables) (h : id ≠ .identity) :
    ¬ mayTake id new { running with
      axes := .all { AxisRec.reset with follower := .tracking }, sgu.purgeWait := true
      clu.circuit.flood.state := .running, pdu.restarting := true } := by
  cases id <;> intro hm <;> simp only [mayTake] at hm
  case identity => exact h rfl
  case axisParams a => cases a <;> exact absurd hm.1 (by decide)
  case pitch a => cases a <;> exact absurd hm (by decide)
  case crossYW | crossZX => exact absurd hm (by decide)
  case gear => exact absurd hm.1 (by decide)
  case coolant => exact absurd (hm .flood) (by decide)
  case inputs | interlock => exact absurd (hm.1 .x) (by decide)
  case outputs => exact absurd (hm.1.1 .x) (by decide)
  case pendant => exact absurd hm.2 (by decide)
  case link => exact absurd hm (by decide)

/-- R115: the clamp of W is closed on output 3, and the image leaves every output GENERAL. -/
theorem witness_ActivateTaken_clamp :
    let s := { staged with
      axes.w := { AxisRec.reset with clamp := .clamped }
      cfg.outputs := Tables.default.outputs.set 3 ⟨.clamp .w, false, 10, true⟩ }
    (s.axis .w).clamp ≠ .free ∧
      clampOutputOf s.cfg.outputs .w ≠ clampOutputOf (installTable .outputs [] s.cfg).outputs .w := by decide +kernel

/-- Every table VALID with one image, stored as it is. -/
def stored : State :=
  { standby with
    tbm.cat := .all { CatEntry.reset with
      status := .valid, image := identityImage, stored := .valid, header := some (identityImage.take 8) } }

theorem witness_StoreProtectFreezeStartJobs :
    tableOfByte (0x01#8).toNat = some .identity ∧ keySetup stored = true ∧ (stored.entry .identity).protect = false ∧
      (stored.entry .identity).freeze = false ∧ (stored.entry .identity).status = .valid ∧ stored.tbm.job = none ∧
      (1#8).toNat ≤ 1 ∧ (stored.entry .identity).protect ≠ decide (1#8 = 1#8) ∧
      (stored.entry .identity).protect = decide (0#8 = 1#8) ∧ (stored.entry .identity).stored = .valid ∧
      (stored.entry .identity).header = some ((stored.entry .identity).image.take 8) := by decide +kernel

theorem witness_StoreProtectFreezeStartJobs_refused :
    keySetup { stored with cfg.inputs.keyswitch := some 3 } = false ∧ busy.tbm.job ≠ none ∧
      (standby.entry .identity).status ≠ .valid ∧ (standby.entry .identity).stored ≠ .valid ∧
      ({ stored with tbm.cat.identity.header := none }.entry .identity).header ≠
        some ((stored.entry .identity).image.take 8) := by decide +kernel

theorem witness_BridgeRequestsAnswered :
    let params : List Byte := 0x01 :: le16 8 ++ [32]
    params.length = 4 ∧ tableOfByte (byteAt params 0) = some .identity ∧ byteAt params 3 = 32 ∧
      (stored.entry .identity).status = .valid ∧ (stored.entry .identity).image.length < u16At params 1 + 32 ∧
      u16At params 1 + 22 ≤ (stored.entry .identity).image.length := by decide +kernel

/-- Characters that POST_DISPLAY takes, a full mailbox, and 48 characters of which the last closes the text. -/
theorem witness_BridgeRequestsAnswered_display :
    (∀ ch ∈ ([0x20, 0x7E] : List Byte), 0x20 ≤ ch.toNat ∧ ch.toNat ≤ 0x7E) ∧ running.pdu.mailbox.state = .free ∧
      Mailbox.state ⟨.sent, [65], 7, [], 7, none, true⟩ ≠ .free ∧
      (Mailbox.compose ⟨.free, [], 7, List.replicate 46 65, 7, none, true⟩).length + 2 ≤ 48 := by decide

theorem witness_BridgeRequestsAnswered_restart :
    standby.fsw.state = .standby ∧ (∀ a, (standby.axis a).follower = .disabled) ∧ standby.sgu.enableFwd = false ∧
      standby.sgu.stopping = false ∧ standby.fsw.periodTimer = none ∧ standby.tbm.job = none ∧ (storing (job .verify none)).tbm.job ≠ none ∧
      { standby with fsw.periodTimer := some 7 }.fsw.periodTimer ≠ none ∧
      { standby with sgu.stopping := true }.sgu.stopping ≠ false := by
  refine ⟨rfl, fun a => ?_, by decide⟩
  cases a <;> rfl

/-- A frame with a service slot, accepted in STANDBY with no window open. -/
def asks (service : List Byte) : Prop :=
  let data := frame 10 (service := service)
  acceptedInCycle data (commandFields data) standby ∧ standby.fsw.window = none ∧ (commandFields data).service = service

theorem witness_ServiceSlotRouted :
    asks [1] ∧ asks [15, 0xC0, 7, 2, 1] ∧ asks [9, 5, 7, 0] ∧ asks [4, 5, 7, 1, 9] ∧ asks [0, 5, 7, 0] ∧
      asks [15, 0xC0, 7, 1, 1] := by
  unfold asks acceptedInCycle
  decide +kernel

theorem witness_ServiceSlotRouted_fields :
    requestFields [4, 5, 7, 1, 9] = ⟨4, 5, 7, 1, [9]⟩ ∧ Station.ofNumber 4 = some (.axis .w) ∧
      Station.ofNumber 9 = none ∧ stationBusy standby.svr (.axis .w) = false ∧ standby.svr.broadcast = none ∧
      stationBusy busy.svr (.axis .y) = true ∧ segmentWaits standby.svr = false := by decide +kernel

/-- A broadcast while the segment of a drive request waits, one of them CLEAR_FAULTS with scope EVENTS. -/
theorem witness_ServiceSlotRouted_waits :
    let s := { standby with svr.pass.axis.w := ⟨.awaitingFrame, 5, 50, none, [1]⟩ }
    let data := frame 10 (service := [0, 0xCA, 7, 1, 5])
    acceptedInCycle data (commandFields data) s ∧ s.fsw.window = none ∧ segmentWaits s.svr = true ∧
      requestFields (commandFields data).service = ⟨0, 0xCA, 7, 1, [5]⟩ ∧
      ¬ ((requestFields [0, 0xC0, 7, 1, 1]).code = 0xCA#8 ∧ (requestFields [0, 0xC0, 7, 1, 1]).params = [5#8]) := by
  unfold acceptedInCycle
  decide +kernel

/-- Requests to the bridge with the first, the last and no code of R203. -/
theorem witness_ServiceSlotRouted_codes :
    requestFields [15, 0xC0, 7, 1, 1] = ⟨15, 0xC0, 7, 1, [1]⟩ ∧ requestFields [15, 0xCB, 7, 0] = ⟨15, 0xCB, 7, 0, []⟩ ∧
      requestFields [15, 0xCC, 7, 0] = ⟨15, 0xCC, 7, 0, []⟩ := by decide

theorem witness_ServiceSlotRouted_linkLost :
    let data := frame 10 (service := [4, 5, 7, 1, 9])
    linkLost.fsw.state = .linkLost ∧ linkLost.fsw.restart = .none ∧ testCommand data = .passes (commandFields data) ∧
      linkLost.fsw.lastSeq ≠ some (commandFields data).seq := by decide +kernel

theorem witness_ClearFaultsOnEvents : ([5#8] : List Byte) = [5#8] ∧ ([0#8] : List Byte) ≠ [5#8] := by decide

theorem witness_ClearFaultsByScope :
    (∃ i : Byte, ([1#8, 4#8] : List Byte) = [1, i] ∧ i.toNat < 5) ∧ Axis.ofIndex (4#8).toNat = some .b ∧
      (∃ scope : Byte, ([5#8] : List Byte) = [scope] ∧ scope ≠ 1 ∧ scope.toNat ≤ 5) ∧
      (∀ scope : Byte, ([6#8] : List Byte) = [scope] → ¬ scope.toNat ≤ 5) ∧
      ∀ i : Byte, ([1#8, 5#8] : List Byte) = [1, i] → ¬ i.toNat < 5 := by
  refine ⟨⟨4#8, rfl, by decide⟩, rfl, ⟨5#8, rfl, by decide, by decide⟩, fun _ h => ?_, fun _ h => ?_⟩ <;> cases h <;> decide

theorem witness_BrakingBoundIsLargest : 0 < 500 := by decide

end Sys2Proof.Machine
end

section
/-! SUPPORT. What a footprint leaves, part by part. -/

namespace Sys2Proof.Machine.Gearbox

set_option Elab.async false

/-! ## The parts that a footprint leaves -/

section
variable {w : Writes} {s t : State}

theorem fsw_kept (h : onlyWrites w s t) (hw : w.fsw = false := by rfl) : t.fsw = s.fsw := by
  simpa [State.blank, State.apart, hw] using congrArg State.fsw h

theorem sgu_kept (h : onlyWrites w s t) (hw : w.sgu = false := by rfl) : t.sgu = s.sgu := by
  simpa [State.blank, State.apart, hw] using congrArg State.sgu h

theorem clu_kept (h : onlyWrites w s t) (hw : w.clu = false := by rfl) : t.clu = s.clu := by
  simpa [State.blank, State.apart, hw] using congrArg State.clu h

theorem tbm_kept (h : onlyWrites w s t) (hw : w.tbm = false := by rfl) : t.tbm = s.tbm := by
  simpa [State.blank, State.apart, hw] using congrArg State.tbm h

theorem cfg_kept (h : onlyWrites w s t) (hw : w.cfg = false := by rfl) : t.cfg = s.cfg := by
  simpa [State.blank, State.apart, hw] using congrArg State.cfg h

theorem inputs_kept (h : onlyWrites w s t) (hw : w.inputs = false := by rfl) : t.iou.inputs = s.iou.inputs := by
  simpa [State.blank, State.apart, hw] using congrArg (fun u : State => u.iou.inputs) h

theorem spindleStop_kept (h : onlyWrites w s t) (hw : w.pdu = false := by rfl) :
    t.pdu.spindleStop = s.pdu.spindleStop := by
  simpa [State.blank, State.apart, Pdu.apart, hw] using congrArg (fun u : State => u.pdu.spindleStop) h

/-- A GENERAL output that may not be written is as it was, with its level. -/
theorem generalOutput_kept (h : onlyWrites w s t) (hw : w.outputs = false := by rfl) (hc : w.cfg = false := by rfl)
    {n : Fin 32} (hg : (s.cfg.outputs[n]).owner = .general) : t.iou.outputs[n] = s.iou.outputs[n] := by
  have all := congrArg (fun u : State => u.iou.outputs) h
  simp only [State.blank, State.apart, hw, Bool.false_eq_true, if_false] at all
  have one := congrArg (fun v : Vector OutputRec 32 => v[n]) all
  simp only [Fin.getElem_fin, Vector.getElem_mapFinIdx, cfg_kept h hc] at one hg ⊢
  simpa only [outputApart, hg, if_true] using one

end

end Sys2Proof.Machine.Gearbox
end

section
/-! SUPPORT. What each operation of the Spindle Gear Unit makes of the gear record, and what it reports. -/

namespace Sys2Proof.Machine.Gearbox

set_option Elab.async false

/-! ## Entries to a shift state -/

theorem enterSettled_sgu (r : Option Gear) (s : State) :
    (enterSettled r s).sgu = { s.sgu with
      current := r, shift := .settled
      sensorTimer := if gearLostCond (s.modSgu fun g => { g with current := r, shift := .settled }) then
        s.startMs s.cfg.gear.confirmTime else none } := rfl

theorem enterUnknown_sgu (s : State) :
    (enterUnknown s).sgu = { s.sgu with
      current := none, shift := .unknown
      sensorTimer := if (onlyGear s).isSome then s.startMs s.cfg.gear.confirmTime else none } := rfl

/-- The record as an attempt ends in failure, before what follows (R66). -/
def attemptEnded (g : Sgu) (why : ShiftFailure) : Sgu :=
  { g with meshTimer := none, creepTimer := none, confirmTimer := none, attemptTimer := none, lastFailure := some why }

theorem attemptFails_retries {s : State} (why : ShiftFailure) (h : s.sgu.attempts < s.cfg.gear.maxAttempts) :
    (attemptFails why s).sgu = { attemptEnded s.sgu why with
        shift := .retryPause, retryTimer := s.startMs s.cfg.gear.retryPause } ∧
      (attemptFails why s).evu = s.evu := by
  unfold attemptFails
  simp only [State.modSgu_sgu, State.modSgu_cfg, h, if_true]
  exact ⟨rfl, rfl⟩

theorem attemptFails_gives_up {s : State} (why : ShiftFailure) (h : ¬ s.sgu.attempts < s.cfg.gear.maxAttempts) :
    (attemptFails why s).sgu = { (attemptEnded s.sgu why).timersOff with
        shift := .failed, current := none, pendingTarget := none } ∧
      (attemptFails why s).evu =
        s.evu.take ⟨.gearShiftFailed, .spindle, gearNumber s.sgu.target + 256 * why.number, s.fsw.lastSeq⟩ := by
  unfold attemptFails
  simp only [State.modSgu_sgu, State.modSgu_cfg, h, if_false]
  exact ⟨rfl, rfl⟩

/-- An attempt that fails goes to RETRY_PAUSE or FAILED, and touches neither the target nor purge wait (R66). -/
theorem attemptFails_kept (why : ShiftFailure) (s : State) :
    (attemptFails why s).sgu.purgeWait = s.sgu.purgeWait ∧ (attemptFails why s).sgu.target = s.sgu.target := by
  by_cases h : s.sgu.attempts < s.cfg.gear.maxAttempts
  · rw [(attemptFails_retries why h).1]; exact ⟨rfl, rfl⟩
  · rw [(attemptFails_gives_up why h).1]; exact ⟨rfl, rfl⟩

/-- The gear record of a raised spindle fault (R57): the first one stands. -/
theorem raiseSpindleFault_sgu (r : SpindleReason) (c : Byte) (l : Nat) (s : State) :
    (raiseSpindleFault r c l s).sgu = { s.sgu with fault := s.sgu.fault.or (some ⟨r, c⟩) } := by
  unfold raiseSpindleFault
  split
  · rename_i f hf; simp only [raise_sgu, hf]; cases hs : s.sgu; simp_all
  · rename_i hf; cases r <;> simp [hf]

/-! ## The read of GEAR_SHIFT (R59 to R61) -/

/-- The read of GEAR_SHIFT sends the shift to STOPPING or to AWAIT_PERMIT. -/
theorem readGearShift_cases (s : State) :
    (readGearShift s).sgu = { s.sgu with
        shift := .stopping, stopTimer := s.startMs s.cfg.gear.stopTimeout, sensorTimer := none } ∨
      (readGearShift s).sgu = { s.sgu with shift := .awaitPermit, sensorTimer := none } := by
  have sgu : (ileMay s).sgu = s.sgu := sgu_kept (onlyWrites_ileMay s)
  have cfg : (ileMay s).cfg = s.cfg := cfg_kept (onlyWrites_ileMay s)
  have now : (ileMay s).now = s.now := by rcases ileMay_cases s with h | h | h <;> simp [h]
  unfold readGearShift
  simp only []
  split
  · exact .inl (by simp only [enterStopping, State.modSgu_sgu, sgu, cfg, State.startMs, now])
  · exact .inr (by simp only [enterAwait, raise_sgu, State.modSgu_sgu, sgu])

/-- The purge answer of a shift that starts: no wait stands and the pump is off (R60, R86). -/
theorem answerPurge_waits {s : State} (h : s.sgu.purgeWait = true) :
    answerPurge s = readGearShift ((takePurgeRequest s).modSgu fun g => { g with purgeWait := false }) := by
  simp only [answerPurge, h, if_true]

theorem answerPurge_idle {s : State} (h : s.sgu.purgeWait = false) : answerPurge s = s := by
  simp [answerPurge, h]

@[simp] theorem takePurgeRequest_sgu (s : State) : (takePurgeRequest s).sgu = s.sgu :=
  sgu_kept (onlyWrites_takePurgeRequest s)

/-- What an answered purge request leaves of the gear record: all but the shift state, its timers and purge wait. -/
theorem answerPurge_kept (s : State) :
    ∃ (sh : Shift) (stop sensor : Timer), (answerPurge s).sgu =
      { s.sgu with shift := sh, purgeWait := false, stopTimer := stop, sensorTimer := sensor } ∧
      (sh = .stopping ∨ sh = .awaitPermit ∨ (s.sgu.purgeWait = false ∧ sh = s.sgu.shift)) := by
  cases h : s.sgu.purgeWait
  · rw [answerPurge_idle h]
    exact ⟨s.sgu.shift, s.sgu.stopTimer, s.sgu.sensorTimer, by rw [← h], .inr (.inr ⟨rfl, rfl⟩)⟩
  · rw [answerPurge_waits h]
    rcases readGearShift_cases ((takePurgeRequest s).modSgu fun g => { g with purgeWait := false }) with e | e
    all_goals (rw [e]; simp only [State.modSgu_sgu, takePurgeRequest_sgu])
    · exact ⟨_, _, _, rfl, .inl rfl⟩
    · exact ⟨_, _, _, rfl, .inr (.inl rfl)⟩

/-! ## The start of a shift (R59) -/

/-- A shift that starts has its target and its first attempt, and either waits for the purge in its state or has read
GEAR_SHIFT. -/
theorem startShift_sgu (r : Gear) (s : State) :
    ∃ (sh : Shift) (wait : Bool) (stop sensor : Timer), (startShift r s).sgu = { s.sgu with
        target := some r, attempts := 1, meshElapsed := false, attemptSpent := false
        shift := sh, purgeWait := wait, stopTimer := stop, sensorTimer := sensor } ∧
      ((sh = s.sgu.shift ∧ wait = true ∧ throughPumpOn s = true) ∨
        ((sh = .stopping ∨ sh = .awaitPermit) ∧ wait = s.sgu.purgeWait ∧ throughPumpOn s = false)) := by
  unfold startShift
  simp only []
  split
  · rename_i h
    exact ⟨_, _, _, _, rfl, .inl ⟨rfl, rfl, h⟩⟩
  · rename_i h
    have off : throughPumpOn s = false := Bool.eq_false_iff.mpr h
    rcases readGearShift_cases (s.modSgu fun g =>
      { g with target := some r, attempts := 1, meshElapsed := false, attemptSpent := false }) with e | e
    · exact ⟨_, _, _, _, e, .inr ⟨.inl rfl, rfl, off⟩⟩
    · exact ⟨_, _, _, _, e, .inr ⟨.inr rfl, rfl, off⟩⟩

/-- A shift that starts outside a drive frame is in STOPPING or AWAIT_PERMIT at once. -/
theorem startShiftNow_sgu (r : Gear) (s : State) :
    ∃ (sh : Shift) (stop sensor : Timer), (startShiftNow r s).sgu = { s.sgu with
        target := some r, attempts := 1, meshElapsed := false, attemptSpent := false
        shift := sh, purgeWait := false, stopTimer := stop, sensorTimer := sensor } ∧
      (sh = .stopping ∨ sh = .awaitPermit) := by
  obtain ⟨sh, wait, stop, sensor, e, cases⟩ := startShift_sgu r s
  obtain ⟨sh', stop', sensor', e', cases'⟩ := answerPurge_kept (startShift r s)
  refine ⟨sh', stop', sensor', by rw [startShiftNow, e', e], ?_⟩
  rcases cases' with h | h | ⟨hw, h⟩
  · exact .inl h
  · exact .inr h
  · rcases cases with ⟨-, rfl, -⟩ | ⟨hs, -, -⟩
    · rw [e] at hw; cases hw
    · rw [h, e]; exact hs

end Sys2Proof.Machine.Gearbox
end

section
/-! SUPPORT. What the operations of the Coolant Unit make of the circuits. -/

namespace Sys2Proof.Machine.Gearbox

set_option Elab.async false

/-- From `s` to `t` no request has changed, and the THROUGH pump has not come on. -/
structure Eases (s t : State) : Prop where
  request : ∀ c, (t.circuit c).request = (s.circuit c).request
  pump : throughPumpOn t = true → throughPumpOn s = true

theorem Eases.refl (s : State) : Eases s s := ⟨fun _ => rfl, id⟩

theorem Eases.trans {s t u : State} (h : Eases s t) (k : Eases t u) : Eases s u :=
  ⟨fun c => (k.request c).trans (h.request c), fun p => h.pump (k.pump p)⟩

theorem Eases.ite {c : Prop} [Decidable c] {s t u : State} (ht : Eases s t) (hu : Eases s u) :
    Eases s (if c then t else u) := by
  by_cases h : c
  · rwa [if_pos h]
  · rwa [if_neg h]

/-- The same circuit records. -/
theorem Eases.of_circuits {s t : State} (h : t.clu.circuit = s.clu.circuit) : Eases s t :=
  ⟨fun _ => by simp only [State.circuit, h], fun p => by simpa only [throughPumpOn, State.circuit, h] using p⟩

theorem Eases.raise {s t : State} (h : Eases s t) (c : Code) (src : Source) (d : Nat) : Eases s (raise c src d t) :=
  ⟨h.request, h.pump⟩

theorem Eases.modSgu {s t : State} (h : Eases s t) (g : Sgu → Sgu) : Eases s (t.modSgu g) := ⟨h.request, h.pump⟩

theorem Eases.of_clu {s t : State} (h : t.clu = s.clu) : Eases s t := .of_circuits (by rw [h])

theorem circuit_modCircuit_self (s : State) (c : Circuit) (g : CircuitRec → CircuitRec) :
    (s.modCircuit c g).circuit c = g (s.circuit c) := PerCircuit.get_set_self _ c _

theorem circuit_modCircuit_other (s : State) {c d : Circuit} (g : CircuitRec → CircuitRec) (h : d ≠ c) :
    (s.modCircuit c g).circuit d = s.circuit d := PerCircuit.get_set_other _ c d _ h

/-- A circuit record that keeps its request is all that changes. -/
theorem request_modCircuit {s : State} {c : Circuit} {g : CircuitRec → CircuitRec}
    (h : (g (s.circuit c)).request = (s.circuit c).request) (d : Circuit) :
    ((s.modCircuit c g).circuit d).request = (s.circuit d).request := by
  by_cases e : d = c
  · rw [e, circuit_modCircuit_self, h]
  · rw [circuit_modCircuit_other s g e]

theorem Eases.modCircuit {s : State} {c : Circuit} {g : CircuitRec → CircuitRec}
    (hr : (g (s.circuit c)).request = (s.circuit c).request)
    (hs : (g (s.circuit c)).state.on = true → (s.circuit c).state.on = true) : Eases s (s.modCircuit c g) := by
  refine ⟨request_modCircuit hr, fun p => ?_⟩
  unfold throughPumpOn at p ⊢
  by_cases e : Circuit.through = c
  · subst e; rw [circuit_modCircuit_self] at p; exact hs p
  · rwa [circuit_modCircuit_other s g e] at p

theorem circuits_setPw (s : State) (ch : Channel) (p : Pw) : (s.setPw ch p).clu.circuit = s.clu.circuit := by
  cases ch <;> rfl

theorem circuits_stageCircuit (c : Circuit) (s : State) : (stageCircuit c s).clu.circuit = s.clu.circuit := by
  cases c <;> rfl

theorem Eases.stageCircuit (c : Circuit) (s : State) : Eases s (stageCircuit c s) :=
  .of_circuits (circuits_stageCircuit c s)

theorem Eases.circuitOff (c : Circuit) (s : State) : Eases s (circuitOff c s) :=
  Eases.trans (t := s.modCircuit c fun r => { r with state := .off, primeTimer := none, lossTimer := none })
    (.modCircuit rfl fun h => by cases h) (.stageCircuit c _)

theorem Eases.enterPurging (s : State) : Eases s (enterPurging s) :=
  Eases.trans (t := s.modCircuit .through fun r => { r with
      state := .purging, primeTimer := none, lossTimer := none, purgeTimer := s.startMs s.cfg.coolant.purge })
    (.modCircuit rfl fun h => by cases h) (.stageCircuit .through _)

theorem Eases.stopCircuit (c : Circuit) (s : State) : Eases s (stopCircuit c s) := by
  cases c
  case through => exact .enterPurging s
  case flood => exact .circuitOff .flood s
  case air => exact .circuitOff .air s

theorem Eases.placeLossHold (s : State) : Eases s (placeLossHold s) := by
  refine .of_circuits ?_
  unfold Machine.placeLossHold
  simp only []
  split <;> rfl

theorem Eases.enterFaulted (c : Circuit) (r : CircuitFault) (s : State) : Eases s (enterFaulted c r s) := by
  have faulted : Eases s (Machine.stageCircuit c (s.modCircuit c fun k =>
      { k with state := .faulted, primeTimer := none, lossTimer := none, fault := some r })) :=
    (Eases.modCircuit rfl fun h => by cases h).trans (.stageCircuit c _)
  have reported := faulted.raise .coolantFault (.circuit c) r.number
  exact .ite (reported.trans (.placeLossHold _)) reported

theorem Eases.pressureChange (c : Circuit) (v : Bool) (s : State) : Eases s (pressureChange c v s) := by
  unfold Machine.pressureChange
  split
  case h_1 hs => exact (Eases.modCircuit rfl fun _ => by rw [hs]; rfl).trans (.stageCircuit c _)
  case h_2 => exact .modCircuit rfl id
  case h_3 => exact .ite (.enterFaulted c _ s) (.modCircuit rfl id)
  case h_4 => exact .refl s

theorem Eases.stopNow (d : Nat) (c : Circuit) (s : State) : Eases s (stopNow d c s) :=
  .ite ((Eases.stopCircuit c s).raise _ _ _) (.refl s)

theorem Eases.stopAllNow (d : Nat) (s : State) : Eases s (stopAllNow d s) :=
  ((Eases.stopNow d .flood s).trans (.stopNow d .through _)).trans (.stopNow d .air _)

theorem Eases.coolantInputChange (n : Fin 48) (s : State) : Eases s (coolantInputChange n s) := by
  unfold Machine.coolantInputChange
  simp only []
  refine Eases.trans ?_ (.ite (.stopAllNow _ _) (.refl _))
  refine Eases.trans ?_ (.ite (.pressureChange .air _ _) (.refl _))
  refine Eases.trans ?_ (.ite (.pressureChange .through _ _) (.refl _))
  exact .ite (.pressureChange .flood _ _) (.refl _)

theorem Eases.takePurgeRequest (s : State) : Eases s (takePurgeRequest s) :=
  .ite (.stopCircuit .through s) (.refl s)

/-- The pump is off once the purge request is taken (R86). -/
theorem takePurgeRequest_pump (s : State) : throughPumpOn (takePurgeRequest s) = false := by
  unfold Machine.takePurgeRequest
  split
  · rfl
  · rename_i h; exact Bool.eq_false_iff.mpr h

theorem Eases.readGearShift (s : State) : Eases s (readGearShift s) := .of_clu (clu_kept (onlyWrites_readGearShift s))

theorem Eases.answerPurge (s : State) : Eases s (answerPurge s) :=
  .ite (((Eases.takePurgeRequest s).modSgu _).trans (.readGearShift _)) (.refl s)

/-- With the purge answered, the pump is off. -/
theorem answerPurge_pump {s : State} (h : s.sgu.purgeWait = true) : throughPumpOn (answerPurge s) = false := by
  rw [answerPurge_waits h]
  refine Bool.eq_false_iff.mpr fun p => ?_
  have on := (Eases.readGearShift _).pump p
  exact absurd ((takePurgeRequest_pump s).symm.trans on) Bool.false_ne_true

/-- A shift that starts outside a drive frame leaves the pump off (R60, R86). -/
theorem startShiftNow_pump (r : Gear) (s : State) : throughPumpOn (startShiftNow r s) = false := by
  obtain ⟨sh, wait, stop, sensor, e, cases⟩ := startShift_sgu r s
  rcases cases with ⟨-, rfl, -⟩ | ⟨-, -, off⟩
  · exact answerPurge_pump (by rw [e])
  · refine Bool.eq_false_iff.mpr fun p => ?_
    have on : throughPumpOn s = true := by
      have started : Eases s (startShift r s) := .of_clu (clu_kept (onlyWrites_startShift r s))
      exact (started.trans (.answerPurge _)).pump p
    rw [off] at on
    cases on

theorem Eases.stopTest (i : CoolantIn) (c : Circuit) (s : State) : Eases s (stopTest i c s) := by
  unfold Machine.stopTest
  simp only []
  have stopped := Eases.stopCircuit c s
  exact .ite (.ite (stopped.raise _ _ _) (.ite (stopped.raise _ _ _) stopped)) (.refl s)

theorem request_startCircuit (c : Circuit) (s : State) (d : Circuit) :
    ((startCircuit c s).circuit d).request = (s.circuit d).request := by
  unfold startCircuit
  split
  all_goals rw [((Eases.stageCircuit c _).request d), request_modCircuit rfl]

theorem request_startTest (i : CoolantIn) (c : Circuit) (s : State) (d : Circuit) :
    ((startTest i c s).circuit d).request = (s.circuit d).request := by
  unfold startTest
  simp only []
  split
  · exact request_startCircuit c s d
  · rfl

/-- Only the start of THROUGH turns its pump on (R78). -/
theorem startTest_pump {i : CoolantIn} {c : Circuit} {s : State} (p : throughPumpOn (startTest i c s) = true) :
    throughPumpOn s = true ∨ (c = .through ∧ i.settled = true) := by
  unfold startTest at p
  simp only [] at p
  split at p
  · rename_i hstart
    by_cases hc : c = .through
    · subst hc
      have can := hstart.2.2
      simp only [canStart, Bool.and_eq_true] at can
      exact .inr ⟨rfl, can.2.1.1⟩
    · have same : (startCircuit c s).circuit .through = s.circuit .through := by
        unfold startCircuit
        split
        all_goals
          rw [State.circuit, circuits_stageCircuit]
          exact circuit_modCircuit_other s _ (Ne.symm hc)
      exact .inl (by rwa [throughPumpOn, same] at p)
  · exact .inl p

theorem Eases.clearCoolant (s : State) : Eases s (clearCoolant s) := by
  have one (c : Circuit) (u : State) : Eases u (if (u.circuit c).state = .faulted then
      Machine.stageCircuit c (u.modCircuit c fun r => { r with state := .off, fault := none }) else u) :=
    .ite ((Eases.modCircuit rfl fun h => by cases h).trans (.stageCircuit c _)) (.refl u)
  exact (((one .flood s).trans (one .through _)).trans (one .air _)).trans (.of_circuits rfl)

theorem Eases.coolantTableActivated (s : State) : Eases s (coolantTableActivated s) :=
  .of_circuits ((circuits_setPw _ .pw1 _).trans (circuits_setPw s .pw0 _))

end Sys2Proof.Machine.Gearbox
end

section
/-! SUPPORT. What a bridge request and the service slot can do to the bridge, said once. -/

namespace Sys2Proof.Machine.Gearbox

set_option Elab.async false

/-! ## What a bridge request can do (R165) -/

/-- Everything that the twelve requests of R203 can make of the state. -/
inductive RequestEffect (s : State) : State → Prop
  | nothing : RequestEffect s s
  /-- The catalogue, the staging buffer and the store job, with every table status kept. -/
  | tables (m : Tbm) (status : ∀ id, (m.cat.get id).status = (s.entry id).status) : RequestEffect s { s with tbm := m }
  | mail (g : Mailbox → Mailbox) : RequestEffect s (s.modMail g)
  | restarts (q : Byte) : RequestEffect s (s.modFsw fun f => { f with restart := .requested q })
  | activates (id : TableId) (image : List Byte) : RequestEffect s (activateTaken id image s)
  | clears (params : List Byte) (g : State → State) (scope : clearScope params = some g) :
      RequestEffect s (ileEval (g s))

/-- A change of one entry that keeps its status keeps every status. -/
theorem status_set {c : PerTable CatEntry} {id : TableId} {e : CatEntry} (h : e.status = (c.get id).status)
    (j : TableId) : ((c.set id e).get j).status = (c.get j).status := by
  by_cases hj : j = id
  · rw [hj, PerTable.get_set_self, h]
  · rw [PerTable.get_set_other _ _ _ _ hj]

theorem RequestEffect.staging (s : State) (g : Staging) : RequestEffect s (setStaging g s) :=
  .tables _ fun _ => rfl

theorem stageWrite_effect (params : List Byte) (s : State) : RequestEffect s (stageWrite params s).2.2 := by
  unfold stageWrite
  simp only []
  repeat' split
  all_goals first | exact .nothing | exact .staging s _

theorem stageCheck_effect (params : List Byte) (s : State) : RequestEffect s (stageCheck params s).2.2 := by
  unfold stageCheck
  simp only []
  repeat' split
  all_goals first | exact .nothing | exact .staging s _

theorem stageDiscard_effect (params : List Byte) (s : State) : RequestEffect s (stageDiscard params s).2.2 := by
  unfold stageDiscard
  split
  · exact .nothing
  · exact .staging s _

theorem readTable_effect (params : List Byte) (s : State) : RequestEffect s (readTable params s).2.2 := by
  unfold readTable
  simp only []
  repeat' split
  all_goals exact .nothing

theorem describe_effect (params : List Byte) (s : State) : RequestEffect s (describe params s).2.2 := by
  unfold describe
  simp only []
  repeat' split
  all_goals exact .nothing

theorem activate_effect (params : List Byte) (s : State) : RequestEffect s (activate params s).2.2 := by
  unfold activate
  simp only []
  repeat' split
  all_goals first | exact .nothing | exact .activates _ _

/-- A job that starts keeps every table status. -/
theorem startJob_status (k : JobKind) (id : TableId) (p : JobPhase) (image : List Byte) (s : State) (j : TableId) :
    ((startJob k id p image s).tbm.cat.get j).status = (s.tbm.cat.get j).status :=
  status_set (e := { s.tbm.cat.get id with running := true }) rfl j

theorem modEntry_status {s : State} {id : TableId} {g : CatEntry → CatEntry}
    (h : (g (s.tbm.cat.get id)).status = (s.tbm.cat.get id).status) (j : TableId) :
    ((s.modEntry id g).tbm.cat.get j).status = (s.tbm.cat.get j).status := status_set h j

/-- A job that starts once an entry has been marked writes the Table Manager alone. -/
theorem RequestEffect.job {s u : State} (k : JobKind) (id : TableId) (p : JobPhase) (image : List Byte)
    (h : u = { s with tbm := u.tbm }) (status : ∀ j, (u.tbm.cat.get j).status = (s.entry j).status) :
    RequestEffect s (startJob k id p image u) := by
  have e : startJob k id p image u = { s with tbm := (startJob k id p image u).tbm } := by
    generalize u.tbm = m at h
    subst h
    rfl
  rw [e]
  exact .tables _ fun j => (startJob_status k id p image u j).trans (status j)

theorem storeTable_effect (params : List Byte) (s : State) : RequestEffect s (storeTable params s).2.2 := by
  unfold storeTable
  simp only []
  repeat' split
  all_goals first | exact .nothing | exact .job _ _ _ _ rfl (modEntry_status rfl)

theorem protectTable_effect (params : List Byte) (s : State) : RequestEffect s (protectTable params s).2.2 := by
  unfold protectTable
  simp only []
  repeat' split
  all_goals first | exact .nothing | exact .job _ _ _ _ rfl (modEntry_status rfl)

theorem freezeTable_effect (params : List Byte) (s : State) : RequestEffect s (freezeTable params s).2.2 := by
  unfold freezeTable
  simp only []
  repeat' split
  case h_2.isFalse.isFalse.isFalse.isFalse.isFalse.isTrue id _ _ _ _ _ _ _ =>
    exact .job _ _ _ _ rfl (modEntry_status (g := fun e => { e with freeze := true }) rfl)
  case h_2.isFalse.isFalse.isFalse.isFalse.isFalse.isFalse =>
    exact .job _ _ _ _ rfl (modEntry_status rfl)
  all_goals exact .nothing

theorem postDisplay_effect (params : List Byte) (s : State) : RequestEffect s (postDisplay params s).2.2 := by
  unfold postDisplay
  simp only []
  repeat' split
  all_goals first | exact .nothing | (dsimp only; exact .mail _)

theorem clearFaults_effect (params : List Byte) (s : State) : RequestEffect s (clearFaults params s).2.2 := by
  unfold clearFaults
  split
  · exact .nothing
  · rename_i g h
    exact .clears params g h

theorem restart_effect (q : Byte) (params : List Byte) (s : State) : RequestEffect s (restart q params s).2.2 := by
  unfold restart
  repeat' split
  all_goals first | exact .nothing | exact .restarts q

theorem bridgeRequest_effect {code : Nat} {q : Byte} {params : List Byte} {s : State} {a : Answer}
    (h : bridgeRequest code q params s = some a) : RequestEffect s a.2.2 := by
  unfold bridgeRequest at h
  split at h
  case h_13 => cases h
  all_goals cases h
  · exact describe_effect params s
  · exact readTable_effect params s
  · exact stageWrite_effect params s
  · exact stageCheck_effect params s
  · exact stageDiscard_effect params s
  · exact activate_effect params s
  · exact storeTable_effect params s
  · exact protectTable_effect params s
  · exact freezeTable_effect params s
  · exact postDisplay_effect params s
  · exact clearFaults_effect params s
  · exact restart_effect q params s

/-- What CLEAR_FAULTS does by its scope (R170, R171). -/
theorem clearScope_cases {params : List Byte} {g : State → State} (h : clearScope params = some g) :
    g = clearAll ∨ (∃ a, g = clearAxisScope a) ∨ g = clearSpindleScope ∨ g = clearCoolant ∨ g = clearPendantLost ∨
      g = clearEvents := by
  unfold clearScope at h
  split at h
  · split at h
    · obtain ⟨a, -, rfl⟩ := Option.map_eq_some_iff.mp h
      exact .inr (.inl ⟨a, rfl⟩)
    · cases h
  · split at h
    · cases h
    · split at h
      case h_1 => exact .inl (Option.some.inj h).symm
      case h_2 => exact .inr (.inr (.inl (Option.some.inj h).symm))
      case h_3 => exact .inr (.inr (.inr (.inl (Option.some.inj h).symm)))
      case h_4 => exact .inr (.inr (.inr (.inr (.inl (Option.some.inj h).symm))))
      case h_5 => exact .inr (.inr (.inr (.inr (.inr (Option.some.inj h).symm))))
      case h_6 => cases h

/-! ## The service slot (R160) -/

/-- A property that every bridge request keeps, and that does not read the Service Responder, the event lists or the
counter of free choices, is kept by the service slot. -/
theorem takeSlot_induction {P : State → Prop} (q : Byte) (slot : List Byte) {s : State} (hs : P s)
    (free : ∀ u n, P u → P { u with free := n }) (svr : ∀ u g, P u → P (u.modSvr g))
    (notice : ∀ u d, P u → P (raise .serviceDiscarded .link d u)) (request : ∀ u t, RequestEffect u t → P u → P t) :
    P (takeSlot q slot s) := by
  have reply (u : State) (r : Request) (st : ReplyStatus) (l : List Byte) (hu : P u) : P (setReply q r st l u) :=
    svr u _ hu
  unfold takeSlot
  simp only []
  split
  · exact hs
  split
  · exact notice s _ hs
  split
  · exact reply s _ _ _ hs
  split
  · refine anyOrder_induction hs free fun g hg u hu => ?_
    simp only [List.mem_cons, List.not_mem_nil, or_false] at hg
    rcases hg with rfl | rfl
    · unfold broadcastBridge
      split
      · exact hu
      · rename_i a ha
        exact request u _ (bridgeRequest_effect ha) hu
    · unfold broadcastDrives
      split
      · exact notice u _ hu
      · exact svr u _ hu
  split
  · unfold takeBridgeRequest
    split
    · exact reply s _ _ _ hs
    · rename_i a ha
      exact reply _ _ _ _ (request s _ (bridgeRequest_effect ha) hs)
  split
  · unfold passThrough
    split
    · exact reply s _ _ _ hs
    · exact svr s _ hs
  · exact reply s _ _ _ hs

end Sys2Proof.Machine.Gearbox
end

section
/-! SUPPORT. What every operation keeps between drive frames: the THROUGH pump off while the gearbox shifts (R60), purge
wait clear (R86), and the D-port. -/

namespace Sys2Proof.Machine.Gearbox

set_option Elab.async false

/-! ## The relation and its calculus -/

/-- The shift states in which the THROUGH pump may be on (R60). -/
def mayPump (s : State) : Prop := s.sgu.shift = .settled ∨ s.sgu.shift = .unknown

theorem pumpGearWf_iff (s : State) : pumpGearWf s = true ↔ (throughPumpOn s = true → mayPump s) := by
  simp only [pumpGearWf, mayPump, Bool.or_eq_true, decide_eq_true_eq, Bool.not_eq_true', or_assoc]
  cases throughPumpOn s <;> simp

/-- From `s` to `t` the pump has stayed apart from the gear shift, purge wait is answered, and no drive frame has left. -/
structure Between (s t : State) : Prop where
  pump : pumpGearWf s = true → pumpGearWf t = true
  wait : s.sgu.purgeWait = false → t.sgu.purgeWait = false
  sent : t.fsw.dPort = s.fsw.dPort

theorem Between.refl (s : State) : Between s s := ⟨id, id, rfl⟩

theorem Between.trans {s t u : State} (h : Between s t) (k : Between t u) : Between s u :=
  ⟨fun p => k.pump (h.pump p), fun p => k.wait (h.wait p), k.sent.trans h.sent⟩

theorem Between.ite {c : Prop} [Decidable c] {s t u : State} (ht : Between s t) (hu : Between s u) :
    Between s (if c then t else u) := by
  by_cases h : c
  · rwa [if_pos h]
  · rwa [if_neg h]

/-- Gear record, coolant circuits and D-port stand: whatever else changes, the promises are kept. -/
theorem Between.same {s t u : State} (h : Between s t) (sgu : u.sgu = t.sgu := by rfl) (clu : u.clu = t.clu := by rfl)
    (port : u.fsw.dPort = t.fsw.dPort := by rfl) : Between s u := by
  refine h.trans ⟨fun p => ?_, fun p => by rw [sgu, p], port⟩
  rw [pumpGearWf_iff] at p ⊢
  simpa only [throughPumpOn, State.circuit, mayPump, clu, sgu] using p

theorem Between.ileEval {s t : State} (h : Between s t) : Between s (ileEval t) := h.same

theorem Between.raise {s t : State} (h : Between s t) (c : Code) (src : Source) (d : Nat) :
    Between s (raise c src d t) := h.same

theorem Between.modAxes {s t : State} (h : Between s t) (g : AxisRec → AxisRec) : Between s (t.modAxes g) := h.same

theorem Between.modPdu {s t : State} (h : Between s t) (g : Pdu → Pdu) : Between s (t.modPdu g) := h.same

theorem Between.modFsw {s t : State} (h : Between s t) (g : Fsw → Fsw)
    (port : ∀ f, (g f).dPort = f.dPort := by intro f; rfl) : Between s (t.modFsw g) := h.same rfl rfl (port _)

/-- An operation that writes none of the three. -/
theorem Between.of_onlyWrites {w : Writes} {s t : State} (h : onlyWrites w s t) (hs : w.sgu = false := by rfl)
    (hc : w.clu = false := by rfl) (hf : w.fsw = false := by rfl) : Between s t :=
  (Between.refl s).same (sgu_kept h hs) (clu_kept h hc) (by rw [fsw_kept h hf])

/-- An operation of the gear unit: outside a shift it may only leave it so, and it sets no purge wait. -/
theorem Between.of_spindle {s t : State} (h : onlyWrites { sgu := true, evu := true } s t)
    (shift : mayPump s → mayPump t) (wait : s.sgu.purgeWait = false → t.sgu.purgeWait = false) : Between s t := by
  refine ⟨fun p => ?_, wait, by rw [fsw_kept h]⟩
  rw [pumpGearWf_iff] at p ⊢
  intro on
  rw [throughPumpOn, State.circuit, clu_kept h] at on
  exact shift (p on)

/-- A gear record with the shift state and purge wait of before. -/
theorem Between.modSgu {s t : State} (h : Between s t) (g : Sgu → Sgu)
    (shift : ∀ u, (g u).shift = u.shift := by intro u; rfl)
    (wait : ∀ u, (g u).purgeWait = u.purgeWait := by intro u; rfl) : Between s (t.modSgu g) :=
  h.trans (.of_spindle (onlyWrites_modSgu t g).mono (fun p => by simpa only [mayPump, State.modSgu_sgu, shift] using p)
    fun p => by rw [State.modSgu_sgu, wait, p])

/-- An operation of the coolant unit that starts nothing. -/
theorem Between.of_coolant {s t : State} (h : onlyWrites { axes := true, clu := true, evu := true } s t)
    (e : Eases s t) : Between s t := by
  refine ⟨fun p => ?_, fun p => by rw [sgu_kept h, p], by rw [fsw_kept h]⟩
  rw [pumpGearWf_iff] at p ⊢
  intro on
  simpa only [mayPump, sgu_kept h] using p (e.pump on)

/-- With the pump off and no purge wait, whatever the shift does. -/
theorem Between.of_off {s t : State} (off : throughPumpOn t = false) (wait : t.sgu.purgeWait = false)
    (port : t.fsw.dPort = s.fsw.dPort) : Between s t :=
  ⟨fun _ => (pumpGearWf_iff t).mpr fun on => absurd (off.symm.trans on) Bool.false_ne_true, fun _ => wait, port⟩

theorem Between.anyOrder {items : List (State → State)} (h : ∀ g ∈ items, ∀ u, Between u (g u)) (s : State) :
    Between s (anyOrder items s) :=
  anyOrder_induction (P := Between s) (.refl s) (fun _ _ hu => hu.same) fun g hg u hu => hu.trans (h g hg u)

theorem Between.foldl {α : Type} {f : State → α → State} (h : ∀ u x, Between u (f u x)) (l : List α) (s : State) :
    Between s (l.foldl f s) := by
  induction l generalizing s with
  | nil => exact .refl s
  | cons x l ih => exact (h s x).trans (ih _)

theorem Between.finish {s t : State} (h : Between s t) : Between s (finish t) :=
  h.same (finish_sgu t) (finish_clu t) (by rw [finish_fsw])

/-! ## The gear unit -/

theorem between_enterSettled (r : Option Gear) (s : State) : Between s (enterSettled r s) :=
  .of_spindle (onlyWrites_enterSettled r s).mono (fun _ => .inl rfl) id

theorem between_enterUnknown (s : State) : Between s (enterUnknown s) :=
  .of_spindle (onlyWrites_enterUnknown s).mono (fun _ => .inr rfl) id

theorem between_watchSettled (s : State) : Between s (watchSettled s) :=
  .of_spindle (onlyWrites_watchSettled s).mono id id

theorem between_watchUnknown (s : State) : Between s (watchUnknown s) :=
  .of_spindle (onlyWrites_watchUnknown s).mono id id

theorem between_raiseSpindleFault (r : SpindleReason) (c : Byte) (l : Nat) (s : State) :
    Between s (raiseSpindleFault r c l s) :=
  .of_spindle (onlyWrites_raiseSpindleFault r c l s)
    (fun p => by simpa only [mayPump, raiseSpindleFault_sgu] using p) fun p => by rw [raiseSpindleFault_sgu]; exact p

/-- During a shift the pump is off, so an attempt may fail in any way. -/
theorem between_attemptFails (why : ShiftFailure) {s : State} (h : ¬ mayPump s) : Between s (attemptFails why s) :=
  .of_spindle (onlyWrites_attemptFails why s) (fun p => absurd p h) fun p => by rw [(attemptFails_kept why s).1, p]

theorem between_enterStopping {s : State} (h : ¬ mayPump s) : Between s (enterStopping s) :=
  .of_spindle (onlyWrites_modSgu s _).mono (fun p => absurd p h) id

/-- A shift in one of the states from AWAIT_PERMIT on. -/
theorem not_mayPump {s : State} {sh : Shift} (h : s.sgu.shift = sh) (hs : sh ≠ .settled := by decide)
    (hu : sh ≠ .unknown := by decide) : ¬ mayPump s := by
  rintro (p | p)
  · exact hs (h.symm.trans p)
  · exact hu (h.symm.trans p)

theorem between_sensorChange (g : Gear) (v : Bool) (s : State) : Between s (sensorChange g v s) := by
  have whole := onlyWrites_sensorChange g v s
  by_cases rest : mayPump s
  · unfold sensorChange
    rcases rest with h | h
    · simp only [h]
      exact .ite (.ite (.refl s) (between_watchSettled s)) ((Between.refl s).modSgu _)
    · simp only [h]
      exact between_watchUnknown s
  · refine .of_spindle whole (fun p => absurd p rest) fun p => ?_
    unfold sensorChange
    split
    case h_1 h | h_2 h => exact absurd (by simp [mayPump, h]) rest
    case h_3 | h_4 => split <;> exact p
    case h_5 =>
      simp only []
      repeat' split
      · rw [(attemptFails_kept _ _).1]; exact p
      all_goals exact p
    all_goals exact p

theorem between_spindleInputChange (n : Fin 48) (s : State) : Between s (spindleInputChange n s) := by
  unfold spindleInputChange
  repeat' split
  · exact .refl s
  · exact .refl s
  · exact between_sensorChange _ _ s

theorem between_startShiftNow (r : Gear) (s : State) : Between s (startShiftNow r s) := by
  obtain ⟨sh, stop, sensor, e, -⟩ := startShiftNow_sgu r s
  exact .of_off (startShiftNow_pump r s) (by rw [e]) (by rw [fsw_kept (onlyWrites_startShiftNow r s)])

theorem between_takePending (s : State) : Between s (takePending s) := by
  unfold takePending
  split
  · exact .refl s
  · have cleared : Between s (s.modSgu fun g => { g with pendingTarget := none }) := (Between.refl s).modSgu _
    exact .ite cleared (cleared.trans (between_startShiftNow _ _))

theorem between_cancelShift (s : State) : Between s (cancelShift s) := by
  have cleared : Between s (s.modSgu fun g => { g with purgeWait := false, target := none, retryTimer := none }) :=
    .of_spindle (onlyWrites_modSgu s _).mono id fun _ => rfl
  unfold cancelShift
  simp only []
  split
  · exact (cleared.trans (between_enterSettled _ _)).same
  · exact (cleared.trans (between_enterUnknown _)).same

theorem between_spindleLinkLost (s : State) : Between s (spindleLinkLost s) := by
  have cleared : Between s (s.modSgu fun g => { g with pendingTarget := none, stopping := false }) :=
    (Between.refl s).modSgu _
  exact .ite (cleared.trans (between_cancelShift _)) cleared

theorem between_enterFailed {s : State} (h : ¬ mayPump s) : Between s (enterFailed s) :=
  .of_spindle (onlyWrites_enterFailed s) (fun p => absurd p h) id

theorem between_stopExpired (s : State) : Between s (stopExpired s) := by
  unfold stopExpired
  simp only []
  split
  · rename_i h
    exact ((Between.refl s).modSgu _).trans (((Between.refl _).modSgu _).trans (between_enterFailed (not_mayPump h)))
  · exact (Between.refl s).modSgu _

theorem between_meshExpired (s : State) : Between s (meshExpired s) := by
  unfold meshExpired
  simp only []
  split
  · rename_i h
    exact ((Between.refl s).modSgu _).trans
      (.of_spindle (onlyWrites_modSgu _ _).mono (fun p => absurd p (not_mayPump h.1)) id)
  · exact (Between.refl s).modSgu _

theorem between_attemptExpired (s : State) : Between s (attemptExpired s) := by
  have stopped : Between s (s.modSgu fun g => { g with attemptTimer := none }) := (Between.refl s).modSgu _
  unfold attemptExpired
  simp only []
  split
  case h_1 h | h_2 h => exact stopped.trans (between_attemptFails _ (not_mayPump h))
  case h_3 => exact stopped.modSgu _
  all_goals exact stopped

theorem between_creepExpired (s : State) : Between s (creepExpired s) :=
  .ite (((Between.refl s).modSgu _).modSgu _) ((Between.refl s).modSgu _)

theorem between_confirmExpired (s : State) : Between s (confirmExpired s) := by
  have stopped : Between s (s.modSgu fun g => { g with confirmTimer := none }) := (Between.refl s).modSgu _
  unfold confirmExpired
  simp only []
  split
  · rename_i h
    refine .ite ?_ (stopped.trans (between_attemptFails _ (not_mayPump h)))
    have done := stopped.modSgu fun g =>
      { g with meshTimer := none, attemptTimer := none, target := none, lastFailure := none }
    exact ((done.trans (between_enterSettled _ _)).same).trans (between_takePending _)
  · exact stopped

theorem between_ileMay (s : State) : Between s (ileMay s) := .of_onlyWrites (onlyWrites_ileMay s)

theorem shift_ileMay (s : State) : (ileMay s).sgu = s.sgu := sgu_kept (onlyWrites_ileMay s)

theorem between_retryExpired (s : State) : Between s (retryExpired s) := by
  have stopped : Between s (s.modSgu fun g => { g with retryTimer := none }) := (Between.refl s).modSgu _
  unfold retryExpired
  simp only []
  split
  · rename_i h
    have counted := (stopped.modSgu fun g =>
      { g with attempts := g.attempts + 1, meshElapsed := false, attemptSpent := false }).trans (between_ileMay _)
    have pause : (ileMay ((s.modSgu fun g => { g with retryTimer := none }).modSgu fun g =>
        { g with attempts := g.attempts + 1, meshElapsed := false, attemptSpent := false })).sgu.shift = .retryPause := by
      rw [shift_ileMay]; exact h
    refine .ite (counted.trans (between_enterStopping (not_mayPump pause))) (.ite (counted.trans (between_cancelShift _)) ?_)
    exact counted.trans (.of_spindle rfl (fun p => absurd p (not_mayPump pause)) id)
  · exact stopped

theorem between_sensorExpired (s : State) : Between s (sensorExpired s) := by
  have stopped : Between s (s.modSgu fun g => { g with sensorTimer := none }) := (Between.refl s).modSgu _
  unfold sensorExpired
  simp only []
  split
  case h_1 =>
    split
    · exact stopped
    · exact ((stopped.trans (between_enterSettled _ _)).same).trans (between_takePending _)
  case h_2 =>
    refine .ite ?_ stopped
    have cleared := stopped.trans (Between.of_spindle (onlyWrites_modSgu _ fun g =>
      { g with purgeWait := false, target := none, pendingTarget := none }).mono id fun _ => rfl)
    exact (cleared.trans (between_enterUnknown _)).trans (between_raiseSpindleFault _ _ _ _)
  all_goals exact stopped

/-! ## The gear unit in a drive frame and in a return -/

/-- A range request may start a shift, which waits for the purge with the pump on. -/
theorem pumpGearWf_rangeRequest (v : Nat) {s : State} (p : pumpGearWf s = true) :
    pumpGearWf (rangeRequest v s) = true := by
  have started (r : Gear) (u : State) (pu : pumpGearWf u = true) : pumpGearWf (startShift r u) = true := by
    rw [pumpGearWf_iff] at pu ⊢
    intro on
    rw [throughPumpOn, State.circuit, clu_kept (onlyWrites_startShift r u)] at on
    obtain ⟨sh, wait, stop, sensor, e, cases⟩ := startShift_sgu r u
    rcases cases with ⟨rfl, -, -⟩ | ⟨-, -, off⟩
    · simpa only [mayPump, e] using pu on
    · exact absurd (off.symm.trans on) Bool.false_ne_true
  have requested (r : Gear) (u : State) (pu : pumpGearWf u = true) : pumpGearWf (newRequest r u) = true := by
    unfold newRequest
    split
    · exact pu
    split
    · exact ((Between.refl u).modSgu _).pump pu
    split
    · split
      · exact pu
      · exact started r u pu
    · exact ((Between.refl u).modSgu _).pump pu
    all_goals exact pu
  have noted (n : Nat) : pumpGearWf (s.modSgu fun g => { g with lastRequest := n }) = true :=
    ((Between.refl s).modSgu _).pump p
  unfold rangeRequest
  simp only []
  generalize (if v ≤ 5 then v else 0) = n
  cases Gear.ofNumber n with
  | none => exact noted n
  | some r =>
    dsimp only
    split
    · exact noted n
    · exact requested r _ (noted n)

theorem between_awaitRead (s : State) : Between s (awaitRead s) := by
  unfold awaitRead
  split
  · rename_i h
    exact between_enterStopping (not_mayPump h.1)
  · exact .refl s

/-- Whatever has set purge wait, the answer leaves the pump apart and the wait clear (R60, R86). -/
theorem answerPurge_apart {s : State} (p : pumpGearWf s = true) :
    pumpGearWf (answerPurge s) = true ∧ (answerPurge s).sgu.purgeWait = false := by
  obtain ⟨sh, stop, sensor, e, -⟩ := answerPurge_kept s
  refine ⟨?_, by rw [e]⟩
  cases h : s.sgu.purgeWait
  · rwa [answerPurge_idle h]
  · rw [pumpGearWf_iff, answerPurge_pump h]
    exact fun k => absurd k Bool.false_ne_true

theorem between_spindleFrame (cmd : Option SpindleCmd) (s : State) : Between s (spindleFrame cmd s) := by
  refine ⟨fun p => ?_, fun _ => ?_, by rw [fsw_kept (onlyWrites_spindleFrame cmd s)]⟩
  · unfold spindleFrame
    simp only []
    refine (answerPurge_apart (((Between.refl _).modSgu _).pump ((between_awaitRead _).pump
      ((between_ileMay _).pump ?_)))).1
    cases cmd with
    | none => exact p
    | some c => exact pumpGearWf_rangeRequest _ (((Between.refl s).modSgu _).pump p)
  · unfold spindleFrame
    simp only []
    generalize State.modSgu _ _ = u
    obtain ⟨sh, stop, sensor, e, -⟩ := answerPurge_kept u
    rw [e]

theorem between_spindleReturn (v : Int) (st : Nat) (c : Byte) (s : State) : Between s (spindleReturn v st c s) := by
  have status (u : State) : Between u (spindleDriveStatus st c u) := by
    unfold spindleDriveStatus
    refine .ite (.ite (.refl u) ?_) ((Between.refl u).modSgu _)
    exact ((Between.refl u).modSgu _).trans (between_raiseSpindleFault _ _ _ _)
  have taken := ((Between.refl s).modSgu fun g => { g with actual := v, stale := false, returned := true }).trans (status _)
  unfold spindleReturn
  generalize spindleDriveStatus st c _ = u at taken
  have shifted : Between u (if u.sgu.shift = .stopping ∧ standstill u then
      enterShifting (u.modSgu fun g => { g with stopTimer := none }) else u) := by
    split
    · rename_i h
      refine ((Between.refl u).modSgu _).trans (.of_spindle (onlyWrites_enterShifting _).mono
        (fun p => absurd p (not_mayPump h.1)) fun p => ?_)
      unfold enterShifting
      simp only []
      split <;> exact p
    · exact .refl u
  simp only []
  exact .ite ((taken.trans shifted).modSgu _) (taken.trans shifted)

theorem between_clearSpindle (s : State) : Between s (clearSpindle s) := by
  have cleared : Between s (s.modSgu fun g => { g with fault := none, driveFaultMem := false }) :=
    (Between.refl s).modSgu _
  exact .ite ((cleared.modSgu _).trans (between_enterUnknown _)) cleared

theorem between_gearTableActivated (s : State) : Between s (gearTableActivated s) := by
  have cleared : Between s (s.modSgu fun g =>
      { g with target := none, pendingTarget := none, sensorTimer := none, attempts := 0 }) := (Between.refl s).modSgu _
  unfold gearTableActivated
  simp only []
  split
  · rename_i g _
    have settled := cleared.trans (between_enterSettled (some g) _)
    exact .ite settled settled.same
  · exact cleared.trans (between_enterUnknown _)

/-! ## The coolant unit -/

/-- The start of THROUGH asks for a settled gearbox (R78), so the circuits in a drive frame keep apart from it. -/
theorem between_coolantFrame (cmd : Option CoolantCmd) (s : State) : Between s (coolantFrame cmd s) := by
  have whole := onlyWrites_coolantFrame cmd s
  refine ⟨fun p => ?_, fun p => by rw [sgu_kept whole, p], by rw [fsw_kept whole]⟩
  rw [pumpGearWf_iff] at p ⊢
  intro on
  have taken : throughPumpOn (takeCoolant cmd s) = throughPumpOn s := by cases cmd <;> rfl
  have settled (h : (coolantIn (takeCoolant cmd s)).settled = true) : mayPump s := by
    have same : (takeCoolant cmd s).sgu = s.sgu := by cases cmd <;> rfl
    simp only [coolantIn, inGear, same, Bool.and_eq_true, decide_eq_true_eq] at h
    exact .inl h.1.1
  have stopped (i : CoolantIn) (u : State) :=
    ((Eases.stopTest i .flood u).trans (.stopTest i .through _)).trans (.stopTest i .air _)
  have rests : mayPump s := by
    unfold coolantFrame at on
    have started := (Eases.of_circuits ((circuits_setPw _ .pw1 _).trans (circuits_setPw _ .pw0 _))).pump on
    rcases startTest_pump started with on | ⟨e, -⟩
    · rcases startTest_pump on with on | ⟨e, -⟩
      · rcases startTest_pump on with on | ⟨-, h⟩
        · exact p (taken ▸ (stopped _ _).pump on)
        · exact settled h
      · cases e
    · cases e
  simpa only [mayPump, sgu_kept whole] using rests

theorem between_stopAllNow (d : Nat) (s : State) : Between s (stopAllNow d s) :=
  .of_coolant (onlyWrites_stopAllNow d s).mono (.stopAllNow d s)

theorem onlyWrites_clearCoolant (s : State) : onlyWrites { axes := true, clu := true } s (clearCoolant s) := by
  have one (c : Circuit) (u : State) : onlyWrites { axes := true, clu := true } u
      (if (u.circuit c).state = .faulted then
        stageCircuit c (u.modCircuit c fun r => { r with state := .off, fault := none }) else u) :=
    onlyWrites_ite ((onlyWrites_modCircuit u c _).mono.trans (onlyWrites_stageCircuit c _).mono) (onlyWrites_refl _ u)
  have cleared (u : State) : onlyWrites { axes := true, clu := true } u
      ((u.modAxes fun r => { r with holds := { r.holds with coolantLoss := false } }).modClu
        fun k => { k with lossHold := false }) :=
    (onlyWrites_modAxes u _).mono.trans (onlyWrites_modClu _ _).mono
  unfold clearCoolant
  exact ((one .flood s).trans ((one .through _).trans (one .air _))).trans (cleared _)

theorem between_clearCoolant (s : State) : Between s (clearCoolant s) :=
  .of_coolant (onlyWrites_clearCoolant s).mono (.clearCoolant s)

end Sys2Proof.Machine.Gearbox
end

section
/-! SUPPORT. What each command but the three that send drive frames keeps between frames. -/

namespace Sys2Proof.Machine.Gearbox

set_option Elab.async false

/-! ## Inputs and axes -/

theorem between_conditionedChange (n : Fin 48) (s : State) : Between s (conditionedChange n s) := by
  refine .anyOrder (fun g hg u => ?_) s
  simp only [List.mem_cons, List.not_mem_nil, or_false] at hg
  rcases hg with rfl | rfl | rfl | rfl | rfl | rfl | rfl | rfl
  iterate 5 exact .of_onlyWrites (onlyWrites_axisInputChange _ n u)
  · exact between_spindleInputChange n u
  · exact .of_coolant (onlyWrites_coolantInputChange n u) (.coolantInputChange n u)
  · exact .of_onlyWrites (onlyWrites_inputEvent n u)

theorem between_takeConditioned (n : Fin 48) (raw v : Bool) (s : State) : Between s (takeConditioned n raw v s) := by
  have stored : Between s (s.setInput n ⟨raw, v, none⟩) := (Between.refl s).same
  exact .ite stored (stored.trans (between_conditionedChange n _))

theorem between_rawChange (n : Fin 48) (high : Bool) (s : State) : Between s (rawChange n high s) := by
  have stored (r : InputRec) : Between s (s.setInput n r) := (Between.refl s).same
  unfold rawChange
  exact .ite (.refl s) (.ite (between_takeConditioned n _ _ s) (.ite (stored _) (stored _)))

theorem between_inputsTableActivated (s : State) : Between s (inputsTableActivated s) := by
  have raw : Between s (inputsFromRaw s) := (Between.refl s).same
  exact raw.trans (.foldl (fun u n => between_conditionedChange n u) _ _)

theorem between_raiseAxisFault (a : Axis) (r : AxisReason) (c : Byte) (s : State) :
    Between s (raiseAxisFault a r c s) := .of_onlyWrites (onlyWrites_raiseAxisFault a r c s)

theorem between_activeLimits (a : Axis) (s : State) : Between s (activeLimits a s) := by
  have one (b : Bool) (r : AxisReason) (u : State) : Between u (if b then raiseAxisFault a r 0 u else u) :=
    .ite (between_raiseAxisFault a r 0 u) (.refl u)
  exact (one _ .hardLimitPos s).trans (one _ .hardLimitNeg _)

theorem between_axisTableActivated (a : Axis) (old : AxisParams) (s : State) :
    Between s (axisTableActivated a old s) := by
  unfold axisTableActivated
  simp only []
  refine Between.trans ?_ (between_activeLimits a _)
  exact (Between.refl s).same

theorem between_clearAxis (a : Axis) (s : State) : Between s (clearAxis a s) := by
  unfold clearAxis
  simp only []
  split
  · exact (Between.refl s).same
  · exact Between.trans (Between.refl s).same (.of_onlyWrites (onlyWrites_resolveClampFault a _))

theorem between_clampExpired (a : Axis) (s : State) : Between s (clampExpired a s) :=
  Between.trans (Between.refl s).same (between_raiseAxisFault a _ _ _)

/-! ## The pendant line -/

theorem between_unackMailbox (d : Nat) (s : State) : Between s (unackMailbox d s) :=
  .ite (Between.refl s).same (.refl s)

theorem between_pendantAbsent (v : Bool) (s : State) : Between s (pendantAbsent v s) := by
  have gone : Between s (s.modPdu fun p =>
      { p with live := false, pendantTimer := none, enable := false, lastSeq := none }) := (Between.refl s).same
  unfold pendantAbsent
  exact .ite (Between.trans (.ite gone.same gone) (between_unackMailbox _ _)) gone

theorem between_setCoolantStop (s : State) : Between s (setCoolantStop s) :=
  .ite (.refl s) (Between.trans (Between.refl s).same (between_stopAllNow 1 _))

theorem between_pressKey (k : Nat) (s : State) : Between s (pressKey k s) := by
  unfold pressKey
  split
  case h_4 => exact between_setCoolantStop s
  all_goals exact (Between.refl s).same

theorem between_takeKeys (live : Bool) (keys : BitVec 24) (s : State) : Between s (takeKeys live keys s) := by
  have noted : Between s (s.modPdu fun p => { p with keys := keys }) := (Between.refl s).same
  exact noted.trans (.foldl (fun u k => .ite (between_pressKey k u) (.refl u)) _ _)

theorem between_takeCount (live : Bool) (r : Report) (s : State) : Between s (takeCount live r s) := by
  unfold takeCount
  simp only []
  repeat' split
  all_goals exact (Between.refl s).same

theorem between_displayAck (ack : Byte) (v : Bool) (s : State) : Between s (displayAck ack v s) :=
  .ite (Between.refl s).same (.refl s)

theorem between_actReport (r : Report) (v : Bool) (s : State) : Between s (actReport r v s) := by
  have lost (u : State) : Between u (if u.pdu.lost && !r.enable then clearPendantLost u else u) :=
    .ite (Between.refl u).same (.refl u)
  have keys (u : State) := (between_takeCount s.pdu.live r u).trans (between_takeKeys s.pdu.live r.keys _)
  unfold actReport
  refine .ite (Between.refl s).same ?_
  refine Between.same (t := displayAck r.ack v _) (Between.trans ?_ (between_displayAck r.ack v _))
  exact (Between.trans (Between.refl s).same (lost _)).trans (keys _)

theorem between_acceptMessage (b : RxByte) (s : State) : Between s (acceptMessage b s) := by
  unfold acceptMessage
  simp only []
  repeat' split
  case h_2 => exact Between.trans (Between.refl s).same (between_actReport _ _ _)
  all_goals exact (Between.refl s).same

theorem between_decodeByte (s : State) (b : RxByte) : Between s (decodeByte s b) := by
  unfold decodeByte
  simp only []
  split
  case h_1 => exact .ite (Between.refl s).same (.refl s)
  case h_2 => exact .ite (Between.refl s).same (.ite (Between.refl s).same (Between.refl s).same)
  case h_3 => exact .ite (Between.refl s).same (Between.refl s).same
  case h_4 => exact .ite (Between.refl s).same (between_acceptMessage b s)

theorem between_decodeStored (s : State) : Between s (decodeStored s) := by
  unfold decodeStored
  refine .ite (.refl s) ?_
  exact Between.trans (Between.refl s).same (.foldl between_decodeByte _ _)

theorem between_receiveChar (d : Byte) (p q : Bool) (s : State) : Between s (receiveChar d p q s) := by
  unfold receiveChar
  exact .ite (.refl s) (.ite (Between.refl s).same (Between.refl s).same)

theorem between_byteDone (s : State) : Between s (byteDone s) := by
  unfold byteDone
  exact .ite (.ite (Between.refl s).same (Between.refl s).same) (.refl s)

theorem between_drainExpired (s : State) : Between s (drainExpired s) := by
  unfold drainExpired
  exact .ite (.ite (Between.refl s).same (Between.refl s).same) (Between.refl s).same

theorem between_pendantTableActivated (old : PendantTable) (s : State) : Between s (pendantTableActivated old s) := by
  have stopped : Between s (s.modPdu fun p =>
      { p with restarting := true, rx := [], overrun := false, rts := false, decoder := ⟨.hunt, 0, []⟩ }) :=
    (Between.refl s).modPdu _
  have absent := (stopped.trans (between_pendantAbsent false _)).trans (between_unackMailbox 512 _)
  have drained := absent.modPdu fun p => { p with drainTimer := s.startMs old.timeout }
  unfold pendantTableActivated
  exact .ite (drained.modPdu _) drained

/-! ## Tables and the store -/

theorem between_coolantTableActivated (s : State) : Between s (coolantTableActivated s) :=
  .of_coolant ((onlyWrites_setPw s .pw0 _).mono.trans (onlyWrites_setPw _ .pw1 _).mono) (.coolantTableActivated s)

theorem between_outputsTableActivated (old : Vector OutputCfg 32) (s : State) :
    Between s (outputsTableActivated old s) := (Between.refl s).same

theorem between_tableActivated (id : TableId) (old : Tables) (s : State) : Between s (tableActivated id old s) := by
  unfold tableActivated
  split
  case h_1 => exact between_axisTableActivated _ _ s
  case h_2 => exact between_gearTableActivated s
  case h_3 => exact between_coolantTableActivated s
  case h_4 => exact between_inputsTableActivated s
  case h_5 => exact between_outputsTableActivated _ s
  case h_6 => exact between_pendantTableActivated _ s
  all_goals exact .refl s

theorem between_activateTaken (id : TableId) (image : List Byte) (s : State) : Between s (activateTaken id image s) := by
  have installed : Between s { setStaging .reset (s.modEntry id fun e => { e with status := .valid, image := image }) with
      cfg := installTable id image s.cfg } := (Between.refl s).same
  exact (installed.trans (between_tableActivated id s.cfg _)).ileEval

theorem between_loadTable (id : TableId) (s : State) : Between s (loadTable id s) := by
  unfold loadTable
  simp only []
  repeat' split
  all_goals exact (Between.refl s).same

theorem between_setProtect (g : TableId → Bool) (s : State) : Between s (setProtect g s) :=
  .foldl (fun u _ => (Between.refl u).same) _ _

theorem between_loadStore (s : State) : Between s (loadStore s) := by
  have protection (u : State) : Between u (loadProtection u) := by
    unfold loadProtection
    exact .ite (between_setProtect _ u) (.ite (between_setProtect _ u) ((between_setProtect _ u).raise _ _ _))
  have freeze (u : State) : Between u (loadFreeze u) := .foldl (fun u _ => (Between.refl u).same) _ _
  exact (Between.foldl (fun u id => between_loadTable id u) tableIds s).trans ((protection _).trans (freeze _))

theorem between_activateLoaded (s : State) : Between s (activateLoaded s) := by
  have inputs : Between s (inputsTableActivated
      { s with cfg := { s.cfg with inputs := (loadedTables s.tbm.cat).inputs } }) :=
    Between.trans (Between.refl s).same (between_inputsTableActivated _)
  have installed : Between s { inputsTableActivated
      { s with cfg := { s.cfg with inputs := (loadedTables s.tbm.cat).inputs } } with cfg := loadedTables s.tbm.cat } :=
    inputs.same
  have blocks : ∀ g ∈ [axisTableActivated .x (s.cfg.axis.get .x), axisTableActivated .y (s.cfg.axis.get .y),
      axisTableActivated .z (s.cfg.axis.get .z), axisTableActivated .w (s.cfg.axis.get .w),
      axisTableActivated .b (s.cfg.axis.get .b), gearTableActivated], ∀ u, Between u (g u) := by
    intro g hg u
    simp only [List.mem_cons, List.not_mem_nil, or_false] at hg
    rcases hg with rfl | rfl | rfl | rfl | rfl | rfl
    iterate 5 exact between_axisTableActivated _ _ u
    exact between_gearTableActivated u
  have active := (installed.trans (.anyOrder blocks _)).trans (between_coolantTableActivated _)
  exact (active.trans (between_outputsTableActivated s.cfg.outputs _)).trans
    (between_pendantTableActivated s.cfg.pendant _)

theorem between_phaseEnd (bad : List Host.Cell) (s : State) : Between s (phaseEnd bad s) := by
  unfold phaseEnd
  simp only []
  repeat' split
  all_goals exact (Between.refl s).same

theorem between_phaseTimeout (done : List Nat) (s : State) : Between s (phaseTimeout done s) := by
  unfold phaseTimeout
  split <;> exact (Between.refl s).same

/-! ## Requests and the service slot -/

theorem between_clearScope {params : List Byte} {g : State → State} (h : clearScope params = some g) (s : State) :
    Between s (g s) := by
  have axis (a : Axis) (u : State) : Between u (clearAxisScope a u) := (between_clearAxis a u).same
  have spindle (u : State) : Between u (clearSpindleScope u) := (between_clearSpindle u).same
  have lost (u : State) : Between u (clearPendantLost u) := ((Between.refl u).modAxes _).modPdu _
  rcases clearScope_cases h with rfl | ⟨a, rfl⟩ | rfl | rfl | rfl | rfl
  · have axes := (((axis .x s).trans (axis .y _)).trans (axis .z _)).trans ((axis .w _).trans (axis .b _))
    exact (axes.trans ((spindle _).trans (between_clearCoolant _))).trans (lost _)
  · exact axis a s
  · exact spindle s
  · exact between_clearCoolant s
  · exact lost s
  · exact (Between.refl s).same

theorem between_request {s t : State} (h : RequestEffect s t) : Between s t := by
  cases h with
  | nothing => exact .refl s
  | tables => exact (Between.refl s).same
  | mail => exact (Between.refl s).same
  | restarts => exact (Between.refl s).same
  | activates id image => exact between_activateTaken id image s
  | clears params g scope => exact (between_clearScope scope s).ileEval

theorem between_takeSlot (q : Byte) (slot : List Byte) (s : State) : Between s (takeSlot q slot s) :=
  takeSlot_induction (P := Between s) q slot (.refl s) (fun _ _ h => h.same) (fun _ _ h => h.same)
    (fun _ _ h => h.same) fun _ _ r h => h.trans (between_request r)

/-! ## The cycle path -/

theorem Between.toStandby {s t : State} (h : Between s t) : Between s (markStopping (placeStandby t)) :=
  (h.modAxes _).modSgu fun g => { g with stopping := g.enableFwd }

theorem between_leaveLinkLost (s : State) : Between s (leaveLinkLost s) :=
  (((Between.refl s).modFsw _).modAxes _).toStandby

theorem between_testRest (s : State) : Between s (testRest s) := by
  have timer (t : Timer) : Between s (s.modFsw fun f => { f with restTimer := t }) := (Between.refl s).modFsw _
  exact .ite (.ite (.refl s) (.ite (between_leaveLinkLost s) (timer _))) (timer none)

theorem between_missStation (st : Station) (s : State) : Between s (missStation st s) := by
  have report (u : State) : Between u (reportSilent st u) := by
    unfold reportSilent
    simp only []
    split
    · exact Between.trans (Between.refl u).same (between_raiseAxisFault _ _ _ _)
    · exact Between.trans (Between.refl u).same (between_raiseSpindleFault _ _ _ _)
  have missed : Between s (s.modStation st fun r => { r with miss := min (r.miss + 1) 255 }) := (Between.refl s).same
  exact .ite (missed.trans (report _)) missed

theorem between_markStale (taken : PerStation Bool) (s : State) : Between s (markStale taken s) :=
  (Between.modSgu (t := s) (.refl s) fun g => { g with stale := !taken.spindle, closedStale := !taken.spindle }).same

theorem between_sendEcho (q : Byte) (e : EchoStatus) (s : State) : Between s (sendEcho q e s) := (Between.refl s).same

theorem between_closeWindow (s : State) : Between s (closeWindow s) := by
  unfold closeWindow
  split
  · exact .refl s
  · rename_i w _
    simp only []
    have closed : Between s (s.modFsw fun f => { f with window := none, windowTimer := none }) :=
      (Between.refl s).modFsw _
    have stations : ∀ g ∈ (stations.filter fun st => !w.taken.get st).map missStation, ∀ u, Between u (g u) := by
      intro g hg u
      obtain ⟨st, -, rfl⟩ := List.mem_map.mp hg
      exact between_missStation st u
    have marked := (closed.trans (.anyOrder stations _)).trans (between_markStale w.taken _)
    split
    · exact marked.trans (between_sendEcho _ _ _)
    · exact .ite (marked.trans (between_testRest _)) marked

theorem between_returnArrives (data : List Byte) (s : State) : Between s (returnArrives data s) := by
  have reply (st : Station) (g : Segment) (u : State) : Between u (driveReply st g u) :=
    .ite (Between.refl u).same (.refl u)
  have handed (r : ReturnFrame) (u : State) : Between u (handOver r u) := by
    unfold handOver
    have part : Between u (match r.station with
        | .axis a => axisReturn a r.seq r.actual r.status r.code u
        | .spindle => spindleReturn r.actual r.status r.code u) := by
      split
      · exact .of_onlyWrites (onlyWrites_axisReturn _ _ _ _ _ u)
      · exact between_spindleReturn _ _ _ u
    simp only []
    split
    · exact part
    · exact part.trans (reply _ _ _)
  unfold returnArrives
  split
  · exact (Between.refl s).same
  · rename_i r _
    refine .ite ?_ (Between.refl s).same
    have taken := Between.trans (s := s) (t := takeStation r.station s) (Between.refl s).same (handed r _)
    unfold takeReturn
    simp only []
    split
    · exact taken
    · exact .ite (taken.trans (between_closeWindow _)) taken

theorem between_takeRun (run : Bool) (s : State) : Between s (takeRun run s) := by
  unfold takeRun
  split
  · exact .ite (.refl s) (Between.modSgu (t := removeStandby _) (Between.refl s).same _)
  · exact (Between.refl s).modFsw _
  · exact ((Between.refl s).modFsw _).toStandby
  · exact .refl s

theorem between_frameParts (sl : Slots) (q : Byte) : ∀ g ∈ frameParts sl q, ∀ u, Between u (g u) := by
  intro g hg u
  simp only [frameParts, List.mem_cons, List.not_mem_nil, or_false] at hg
  rcases hg with rfl | rfl | rfl | rfl | rfl | rfl | rfl | rfl
  iterate 5 exact (Between.of_onlyWrites (onlyWrites_axisFrame _ _ q u)).ileEval
  · exact (between_spindleFrame _ u).ileEval
  · exact (between_coolantFrame _ u).ileEval
  · exact .of_onlyWrites (onlyWrites_outputFrame _ u)

end Sys2Proof.Machine.Gearbox
end

section
/-! SUPPORT. What every command keeps: the commands that send no drive frame, and the three that may. -/

namespace Sys2Proof.Machine.Gearbox

set_option Elab.async false

/-! ## Resets -/

theorem between_axesReset (s : State) : Between s (axesReset s) := by
  have fresh : Between s { s with axes := .all .reset, pubX := ⟨0, false⟩, pubW := ⟨0, false⟩ } := (Between.refl s).same
  have limits : ∀ g ∈ Sys2Proof.axes.map activeLimits, ∀ u, Between u (g u) := by
    intro g hg u
    obtain ⟨a, -, rfl⟩ := List.mem_map.mp hg
    exact between_activeLimits a u
  exact (fresh.trans (.foldl (fun u a => (Between.refl u).same) _ _)).trans (.anyOrder limits _)

/-- The last steps of a reset leave the gear record and the D-port, with every circuit off (R94). -/
theorem between_resetEnd {s u : State} (warm : Bool) (wait : u.sgu.purgeWait = false) (port : u.fsw.dPort = s.fsw.dPort) :
    Between s (resetEnd (pendantReset warm (outputsReset (coolantReset u)))) := .of_off rfl wait port

theorem between_coldReset (done : List Nat) (s : State) : Between s (coldResetAll done s) :=
  between_resetEnd false rfl (between_axesReset (inputsFromRaw { s with
    fsw := fswReset s.fsw .reset .zero, svr := .reset, evu := .reset, cfg := .default
    tbm := { Tbm.reset with store := storeCutOff done s.tbm } })).sent

theorem spindleWarmReset_leaves (s : State) :
    (spindleWarmReset s).sgu.purgeWait = false ∧ (spindleWarmReset s).fsw = s.fsw := by
  unfold spindleWarmReset
  split <;> exact ⟨rfl, rfl⟩

theorem between_warmReset (s : State) : Between s (warmResetAll s) := by
  obtain ⟨wait, fsw⟩ := spindleWarmReset_leaves (axesReset (inputsFromRaw (setStaging .reset { s with
    fsw := fswReset s.fsw .standby s.fsw.counters, svr := .reset, evu := .reset })))
  exact between_resetEnd true wait ((congrArg Fsw.dPort fsw).trans (between_axesReset _).sent)

/-! ## The commands that send no drive frame -/

/-- The three commands by which drive frames leave (R147, R148, R154). -/
def maySendFrame (c : Instr) : Bool :=
  match c with
  | .commandFrame _ | .periodTimerExpiry | .linkTimerExpiry => true
  | _ => false

theorem between_answer {act : State → State} {s t : State} (h : Between s (act s)) (e : answer act s = .next t) :
    Between s t := by
  obtain rfl : finish (act s) = t := Host.Outcome.next.inj e
  exact h.finish

theorem between_answerExpiry {timer : Timer} {act : State → State} {s t : State} (h : ∀ u, Between u (act u))
    (e : answerExpiry timer act s = .next t) : Between s t := by
  cases timer with
  | none => cases e; exact .refl s
  | some n =>
    obtain rfl : finish (act { s with now := max s.now n }) = t := Host.Outcome.next.inj e
    exact Between.finish (Between.trans (Between.refl s).same (h _))

theorem between_loadCompletes (s : State) : Between s (loadCompletes s) :=
  ((between_loadStore s).trans (between_activateLoaded _)).modFsw _

theorem between_restExpired (s : State) : Between s (restExpired s) := by
  unfold restExpired
  split
  · exact between_leaveLinkLost s
  all_goals exact (Between.refl s).modFsw _

theorem between_primeExpired (c : Circuit) (s : State) : Between s (primeExpired c s) :=
  .ite (.of_coolant (onlyWrites_enterFaulted c _ s) (.enterFaulted c _ s))
    (.of_coolant (onlyWrites_modCircuit s c _).mono (.modCircuit rfl id))

theorem between_lossExpired (c : Circuit) (s : State) : Between s (lossExpired c s) :=
  .ite (.of_coolant (onlyWrites_enterFaulted c _ s) (.enterFaulted c _ s))
    (.of_coolant (onlyWrites_modCircuit s c _).mono (.modCircuit rfl id))

theorem between_purgeExpired (s : State) : Between s (purgeExpired s) := by
  have stopped : Between s (s.modCircuit .through fun r => { r with purgeTimer := none }) :=
    .of_coolant (onlyWrites_modCircuit s .through _).mono (.modCircuit rfl id)
  refine .ite (stopped.trans ?_) stopped
  exact .of_coolant ((onlyWrites_modCircuit _ _ _).mono.trans (onlyWrites_stageCircuit .through _).mono)
    ((Eases.modCircuit rfl fun h => by cases h).trans (.stageCircuit .through _))

theorem between_setPw (s : State) (ch : Channel) (p : Pw) : Between s (s.setPw ch p) :=
  .of_coolant (onlyWrites_setPw s ch p).mono (.of_circuits (circuits_setPw s ch p))

theorem between_displayExpired (s : State) : Between s (displayExpired s) :=
  Between.trans ((Between.refl s).modPdu _) (between_unackMailbox 0 _)

theorem between_decodeDue (s : State) : Between s (decodeDue s) :=
  ((Between.refl s).modPdu _).trans (between_decodeStored _)

theorem between_resetRelease {s t : State} (h : execResetRelease s = .next t) : Between s t := by
  unfold execResetRelease at h
  split at h
  · exact between_answer ((Between.refl s).modFsw _) h
  · cases h; exact .refl s

theorem between_loadEnd {s t : State} (h : execLoadEnd s = .next t) : Between s t := by
  unfold execLoadEnd at h
  split at h
  · exact between_answer (between_loadCompletes s) h
  · cases h; exact .refl s

theorem between_execWarmReset {s t : State} (h : execWarmReset s = .next t) : Between s t := by
  unfold execWarmReset at h
  split at h
  · exact Host.Outcome.next.inj h ▸ between_warmReset s
  · cases h; exact .refl s

/-- A command that sends no drive frame keeps the pump apart, leaves purge wait clear and sends nothing to the drives. -/
theorem exec_between {c : Instr} {s t : State} (hc : maySendFrame c = false) (h : exec c s = .next t) : Between s t := by
  cases c with
  | commandFrame | periodTimerExpiry | linkTimerExpiry => cases hc
  | coldReset done => exact Host.Outcome.next.inj h ▸ between_coldReset done s
  | resetRelease => exact between_resetRelease h
  | loadEnd => exact between_loadEnd h
  | warmReset => exact between_execWarmReset h
  | windowTimerExpiry => exact between_answerExpiry between_closeWindow h
  | restTimerExpiry => exact between_answerExpiry between_restExpired h
  | driveReturn data => exact between_answer (between_returnArrives data s) h
  | passThroughTimerExpiry st => exact between_answerExpiry (fun u => (Between.refl u).same) h
  | inputLevelChange n high => exact between_answer (between_rawChange n high s) h
  | debounceTimerExpiry n => exact between_answerExpiry (fun u => between_takeConditioned n _ _ u) h
  | clampTimerExpiry a => exact between_answerExpiry (between_clampExpired a) h
  | pulseTimerExpiry n => exact between_answerExpiry (fun u => (Between.refl u).same) h
  | stopTimerExpiry => exact between_answerExpiry between_stopExpired h
  | meshTimerExpiry => exact between_answerExpiry between_meshExpired h
  | attemptTimerExpiry => exact between_answerExpiry between_attemptExpired h
  | creepTimerExpiry => exact between_answerExpiry between_creepExpired h
  | confirmTimerExpiry => exact between_answerExpiry between_confirmExpired h
  | retryTimerExpiry => exact between_answerExpiry between_retryExpired h
  | sensorTimerExpiry => exact between_answerExpiry between_sensorExpired h
  | primeTimerExpiry c => exact between_answerExpiry (between_primeExpired c) h
  | lossTimerExpiry c => exact between_answerExpiry (between_lossExpired c) h
  | purgeTimerExpiry => exact between_answerExpiry between_purgeExpired h
  | periodStart ch => exact between_answer (act := fun u => u.setPw ch (u.pw ch).periodStart) (between_setPw s ch _) h
  | highPartEnd ch => exact between_answer (act := fun u => u.setPw ch (u.pw ch).highEnd) (between_setPw s ch _) h
  | characterReceived d p q => exact between_answer (between_receiveChar d p q s) h
  | decodeInterval => exact between_answerExpiry between_decodeDue h
  | pendantTimerExpiry => exact between_answerExpiry (between_pendantAbsent true) h
  | displayTimerExpiry => exact between_answerExpiry between_displayExpired h
  | ctsChange v =>
    exact between_answer (act := fun u => u.modPdu fun p => { p with cts := v }) ((Between.refl s).modPdu _) h
  | transmitByteDone => exact between_answer (between_byteDone s) h
  | drainTimerExpiry => exact between_answerExpiry between_drainExpired h
  | storePhaseEnd bad => exact between_answer (between_phaseEnd bad s) h
  | storePhaseTimeout done => exact between_answerExpiry (between_phaseTimeout done) h

/-! ## The commands that may send one -/

/-- From `s` to `t` the pump has stayed apart from the gear shift, and purge wait is answered. -/
def KeepsApart (s t : State) : Prop :=
  (pumpGearWf s = true → pumpGearWf t = true) ∧ (s.sgu.purgeWait = false → t.sgu.purgeWait = false)

theorem Between.keepsApart {s t : State} (h : Between s t) : KeepsApart s t := ⟨h.pump, h.wait⟩

theorem KeepsApart.trans {s t u : State} (h : KeepsApart s t) (k : KeepsApart t u) : KeepsApart s u :=
  ⟨fun p => k.1 (h.1 p), fun p => k.2 (h.2 p)⟩

/-- The departure of a drive frame turns no output and shifts no gear. -/
theorem keepsApart_frameLeaves (q : Byte) (e : Option EchoStatus) (s : State) : KeepsApart s (frameLeaves q e s) := by
  have whole := onlyWrites_frameLeaves q e s
  refine ⟨fun p => ?_, fun p => by rw [sgu_kept whole, p]⟩
  rw [pumpGearWf_iff] at p ⊢
  simpa only [throughPumpOn, State.circuit, mayPump, clu_kept whole, sgu_kept whole] using p

theorem between_formFrame (sl : Slots) (q : Byte) (service : List Byte) (s : State) :
    Between s (formFrame (frameParts sl q) (takeSlot q service) s).1 :=
  formFrame_induction (P := Between s) (.refl s) (fun _ _ h => h.same) (fun u h => h.trans (between_takeSlot q service u))
    fun g hg u h => h.trans (between_frameParts sl q g hg u)

theorem keepsApart_selfPacedFrame (s : State) : KeepsApart s (selfPacedFrame s) := by
  unfold selfPacedFrame
  exact (Between.anyOrder (between_frameParts .none (s.fsw.ownSeq + 1)) s).keepsApart.trans (keepsApart_frameLeaves _ _ _)

theorem keepsApart_openCycle (c : CommandFrame) (gap : Bool) (s : State) : KeepsApart s (openCycle c gap s) := by
  have closed := between_closeWindow s
  unfold openCycle
  simp only []
  split
  · exact closed.keepsApart
  · have run := (closed.modFsw fun f => { f with gapMark := gap }).trans (between_takeRun c.run _)
    have paced : Between s (paceFromCommand (takeRun c.run ((closeWindow s).modFsw fun f => { f with gapMark := gap }))) :=
      run.modFsw _
    exact (paced.trans (between_formFrame c.slots c.seq c.service _)).keepsApart.trans (keepsApart_frameLeaves _ _ _)

theorem between_acceptSeq (q : Byte) (s : State) : Between s (acceptSeq q s) := (Between.refl s).same

theorem between_echoInLinkLost (c : CommandFrame) (gap : Bool) (s : State) : Between s (echoInLinkLost c gap s) :=
  ((((Between.refl s).modFsw fun f => { f with gapMark := gap }).trans (between_takeSlot c.seq c.service _)).ileEval).trans
    (between_sendEcho _ _ _)

theorem keepsApart_commandArrives (data : List Byte) (s : State) : KeepsApart s (commandArrives data s) := by
  have counted (g : Counters → Counters) : Between s (s.modCounters g) := (Between.refl s).same
  unfold commandArrives
  split
  · split
    · exact (counted _).keepsApart
    · exact (counted _).keepsApart
    · rename_i c _
      split
      · exact (counted _).keepsApart
      · have accepted := (between_acceptSeq c.seq s)
        unfold acceptCommand
        simp only []
        split
        · exact (accepted.trans (between_echoInLinkLost c _ _)).keepsApart
        · exact accepted.keepsApart.trans (keepsApart_openCycle c _ _)
  · split
    · exact (Between.refl s).keepsApart
    all_goals exact (counted _).keepsApart

theorem between_linkLossOutputs (s : State) : Between s (linkLossOutputs s) := (Between.refl s).same

/-- The state in which the first self-paced frame after the loss of the link is formed (R154), with the window closed. -/
def linkLostEntry (left : Nat) (s : State) : State :=
  let s := (removeStandby s).modFsw fun f => { f with state := .linkLost, linkTimer := none }
  let s := s.modAxes fun r => { r with holds := { r.holds with linkLost := true } }
  let s := (raise .linkLost .link left s).modCounters fun c => { c with losses := c.losses + 1 }
  ileEval (spindleLinkLost (linkLossOutputs s))

theorem between_linkLostEntry (left : Nat) (s : State) : Between s (linkLostEntry left s) := by
  have state := (((Between.refl s).modAxes fun r => { r with holds := { r.holds with standby := false } }).modFsw
    fun f => { f with state := .linkLost, linkTimer := none }).modAxes
      fun r => { r with holds := { r.holds with linkLost := true } }
  have reported := (state.raise .linkLost .link left).modFsw
    fun f => { f with counters := { f.counters with losses := f.counters.losses + 1 } }
  exact ((reported.trans (between_linkLossOutputs _)).trans (between_spindleLinkLost _)).ileEval

/-- Loss of the link: the warm reset that is due comes first (log 47), or the first self-paced frame leaves. -/
theorem enterLinkLost_eq (s : State) : enterLinkLost s =
    if (closeWindow s).fsw.restart = .due then (closeWindow s).modFsw fun f => { f with linkTimer := none }
    else selfPacedFrame (linkLostEntry (if s.fsw.state = .running then 1 else 0) (closeWindow s)) := rfl

theorem keepsApart_enterLinkLost (s : State) : KeepsApart s (enterLinkLost s) := by
  rw [enterLinkLost_eq]
  split
  · exact ((between_closeWindow s).modFsw _).keepsApart
  · exact ((between_closeWindow s).trans (between_linkLostEntry _ _)).keepsApart.trans (keepsApart_selfPacedFrame _)

theorem keepsApart_answer {act : State → State} {s t : State} (h : KeepsApart s (act s))
    (e : answer act s = .next t) : KeepsApart s t := by
  obtain rfl : finish (act s) = t := Host.Outcome.next.inj e
  exact h.trans (Between.refl _).finish.keepsApart

theorem keepsApart_answerExpiry {timer : Timer} {act : State → State} {s t : State} (h : ∀ u, KeepsApart u (act u))
    (e : answerExpiry timer act s = .next t) : KeepsApart s t := by
  cases timer with
  | none => cases e; exact (Between.refl s).keepsApart
  | some n =>
    obtain rfl : finish (act { s with now := max s.now n }) = t := Host.Outcome.next.inj e
    have due : Between s { s with now := max s.now n } := (Between.refl s).same
    exact (due.keepsApart.trans (h _)).trans (Between.refl _).finish.keepsApart

theorem keepsApart_periodExpired (s : State) : KeepsApart s (periodExpired s) :=
  (((Between.refl s).modFsw _).trans (between_closeWindow _)).keepsApart.trans (keepsApart_selfPacedFrame _)

theorem keepsApart_linkExpired (s : State) : KeepsApart s (linkExpired s) := by
  unfold linkExpired
  split
  · exact keepsApart_enterLinkLost s
  · exact keepsApart_enterLinkLost s
  all_goals exact ((Between.refl s).modFsw _).keepsApart

theorem exec_keepsApart {c : Instr} {s t : State} (h : exec c s = .next t) : KeepsApart s t := by
  cases hc : maySendFrame c
  · exact (exec_between hc h).keepsApart
  · cases c with
    | commandFrame data => exact keepsApart_answer (keepsApart_commandArrives data s) h
    | periodTimerExpiry => exact keepsApart_answerExpiry keepsApart_periodExpired h
    | linkTimerExpiry => exact keepsApart_answerExpiry keepsApart_linkExpired h
    | _ => cases hc

theorem between_tick (s : State) : Between s (tick s) := by
  unfold tick
  split <;> exact (Between.refl s).same

theorem step_keepsApart {s t : State} (h : step s = .next t) : KeepsApart s t := by
  unfold step at h
  split at h
  · cases h; exact (between_tick s).keepsApart
  · rename_i c rest _
    have front : Between s { s with pending := rest } := (Between.refl s).same
    exact front.keepsApart.trans (exec_keepsApart h)

/-! ## Outputs -/

/-- In SETTLED and UNKNOWN no shift output is called for (R100). -/
theorem calledLevel_gearShift_off {s : State} (h : mayPump s) (n : Fin 32) : calledLevel s n .gearShift = false := by
  unfold calledLevel
  rcases h with h | h <;> simp only [h]

/-- The outputs of the pump and of the gear shift show their functions' levels, which are never on together. -/
theorem pump_and_shift_outputs_apart {s : State} (wf : pumpGearWf s = true) (shown : outputsFollow s) {n m : Fin 32}
    (pump : (s.cfg.outputs[n]).owner = .throughPump) (shift : (s.cfg.outputs[m]).owner = .gearShift) :
    ¬((s.iou.outputs[n]).on = true ∧ (s.iou.outputs[m]).on = true) := by
  rintro ⟨hn, hm⟩
  have pumpOn : throughPumpOn s = true := by
    have := shown n (by rw [pump]; decide)
    rwa [pump, hn, eq_comm] at this
  have shiftOn : calledLevel s m .gearShift = true := by
    have := shown m (by rw [shift]; decide)
    rwa [shift, hm, eq_comm] at this
  exact absurd ((calledLevel_gearShift_off ((pumpGearWf_iff s).mp wf pumpOn) m).symm.trans shiftOn) Bool.false_ne_true

/-- Settles O8: every step keeps the pump apart from the gear shift and leaves purge wait clear. -/
theorem pumpAndGearShiftStayApart : Obligations.PumpAndGearShiftStayApart :=
  ⟨fun _ _ wf h => (step_keepsApart h).1 wf, fun _ _ wait h => (step_keepsApart h).2 wait,
    fun _ wf shown _ _ pump shift => pump_and_shift_outputs_apart wf shown pump shift⟩

end Sys2Proof.Machine.Gearbox
end

section
/-! SUPPORT. The timers of the gear unit: what each expiry makes of the gear record and of the event lists. -/

namespace Sys2Proof.Machine.Gearbox

set_option Elab.async false

/-! ## The timebase stands -/

theorem now_ite {c : Prop} [Decidable c] {s t u : State} (ht : t.now = s.now) (hu : u.now = s.now) :
    (if c then t else u).now = s.now := by
  by_cases h : c
  · rwa [if_pos h]
  · rwa [if_neg h]

@[simp] theorem now_ileMay (s : State) : (ileMay s).now = s.now := by rcases ileMay_cases s with h | h | h <;> simp [h]

@[simp] theorem now_readGearShift (s : State) : (readGearShift s).now = s.now :=
  now_ite (now_ileMay s) (now_ileMay s)

@[simp] theorem now_startShift (r : Gear) (s : State) : (startShift r s).now = s.now :=
  now_ite rfl (now_readGearShift _)

@[simp] theorem now_takePurgeRequest (s : State) : (takePurgeRequest s).now = s.now := now_ite rfl rfl

@[simp] theorem now_answerPurge (s : State) : (answerPurge s).now = s.now :=
  now_ite ((now_readGearShift _).trans (now_takePurgeRequest s)) rfl

@[simp] theorem now_startShiftNow (r : Gear) (s : State) : (startShiftNow r s).now = s.now :=
  (now_answerPurge _).trans (now_startShift r s)

@[simp] theorem now_takePending (s : State) : (takePending s).now = s.now := by
  unfold takePending
  split
  · rfl
  · exact now_ite rfl (now_startShiftNow _ _)

@[simp] theorem now_attemptFails (why : ShiftFailure) (s : State) : (attemptFails why s).now = s.now := now_ite rfl rfl

@[simp] theorem now_raiseSpindleFault (r : SpindleReason) (c : Byte) (l : Nat) (s : State) :
    (raiseSpindleFault r c l s).now = s.now := by
  unfold raiseSpindleFault
  split
  · rfl
  · cases r <;> rfl

@[simp] theorem now_cancelShift (s : State) : (cancelShift s).now = s.now := by
  unfold cancelShift
  simp only [raise_now]
  split <;> rfl

/-! ## The answer of an expiry -/

/-- The state in which the expiry of a timer at `e` acts (log 2). -/
def atExpiry (e : Nat) (s : State) : State := { s with now := max s.now e }

/-- A timer that runs is answered: the timebase reaches its expiry, and the event is what `act` makes of the state then. -/
theorem expiry_answered {timer : Timer} {act : State → State} {s : State} {e : Nat} {w : Writes} (h : timer = some e)
    (now : (act (atExpiry e s)).now = (atExpiry e s).now) (fp : onlyWrites w (atExpiry e s) (act (atExpiry e s))) :
    ∃ t, answerExpiry timer act s = .next t ∧ t.now = max s.now e ∧ t.sgu = (act (atExpiry e s)).sgu ∧
      t.evu = (act (atExpiry e s)).evu ∧ t.clu = (act (atExpiry e s)).clu ∧ onlyWrites w s t :=
  ⟨_, answerExpiry_some h act s, (finish_now _).trans now, finish_sgu _, finish_evu _, finish_clu _,
    (onlyWrites_now w s (max s.now e)).trans (fp.trans (onlyWrites_finish w _))⟩

/-! ## STOP, MESH and CREEP (R62 to R64) -/

theorem onlyWrites_stopExpired (s : State) : onlyWrites { sgu := true, evu := true } s (stopExpired s) :=
  onlyWrites_ite ((onlyWrites_modSgu s _).mono.trans ((onlyWrites_modSgu _ _).mono.trans (onlyWrites_enterFailed _)))
    (onlyWrites_modSgu s _).mono

theorem now_stopExpired (s : State) : (stopExpired s).now = s.now := now_ite rfl rfl

/-- A shift that does not stop in time fails with NOT_STOPPED (R62, R68). -/
theorem stopExpired_stopping {s : State} (h : s.sgu.shift = .stopping) :
    (stopExpired s).sgu = { s.sgu.timersOff with
        shift := .failed, current := none, pendingTarget := none, lastFailure := some .notStopped } ∧
      (stopExpired s).evu =
        s.evu.take ⟨.gearShiftFailed, .spindle, gearNumber s.sgu.target + 256, s.fsw.lastSeq⟩ := by
  unfold stopExpired
  simp only [State.modSgu_sgu, h, if_true]
  exact ⟨rfl, rfl⟩

theorem stopExpired_other {s : State} (h : s.sgu.shift ≠ .stopping) :
    stopExpired s = s.modSgu fun g => { g with stopTimer := none } := by
  unfold stopExpired
  simp only [State.modSgu_sgu, h, if_false]

theorem targetMeshes_iff (s : State) :
    targetMeshes s = true ↔ s.sgu.target ≠ none ∧ s.sgu.target ≠ some .neutral := by
  unfold targetMeshes
  rcases s.sgu.target with _ | g
  · simp
  · cases g <;> simp

theorem onlyWrites_meshExpired (s : State) : onlyWrites { sgu := true } s (meshExpired s) :=
  onlyWrites_ite rfl rfl

theorem now_meshExpired (s : State) : (meshExpired s).now = s.now := now_ite rfl rfl

theorem meshExpired_sgu (s : State) :
    (meshExpired s).sgu =
      if s.sgu.shift = .shifting ∧ s.sgu.target ≠ none ∧ s.sgu.target ≠ some .neutral then
        { s.sgu with
          meshTimer := none, meshElapsed := true, shift := .creeping, creepDir := .positive
          creepTimer := some (s.now + 1000 * s.cfg.gear.creepHalf) }
      else { s.sgu with meshTimer := none, meshElapsed := true } := by
  have meshes := targetMeshes_iff (s.modSgu fun g => { g with meshTimer := none, meshElapsed := true })
  unfold meshExpired
  simp only [State.modSgu_sgu] at meshes
  simp only [State.modSgu_sgu, meshes]
  split <;> rfl

theorem onlyWrites_creepExpired (s : State) : onlyWrites { sgu := true } s (creepExpired s) := onlyWrites_ite rfl rfl

theorem now_creepExpired (s : State) : (creepExpired s).now = s.now := now_ite rfl rfl

theorem creepExpired_sgu (s : State) :
    (creepExpired s).sgu =
      if s.sgu.shift = .creeping then
        { s.sgu with
          creepDir := if s.sgu.creepDir = .positive then .negative else .positive
          creepTimer := some (s.now + 1000 * s.cfg.gear.creepHalf) }
      else { s.sgu with creepTimer := none } := by
  unfold creepExpired
  by_cases creeping : s.sgu.shift = .creeping
  · simp only [State.modSgu_sgu, creeping, if_true]
    cases s.sgu.creepDir <;> rfl
  · simp only [State.modSgu_sgu, creeping, if_false]

/-- Settles O42: the shift fails, creeps, or reverses its creep. -/
theorem stopMeshAndCreepTimers : Obligations.StopMeshAndCreepTimers := by
  intro s e
  refine ⟨fun h => ?_, fun h => ?_, fun h => ?_⟩
  · obtain ⟨t, ht, now, sgu, evu, -, writes⟩ :=
      expiry_answered h (now_stopExpired (atExpiry e s)) (onlyWrites_stopExpired _)
    refine ⟨t, ht, now, ?_, writes⟩
    by_cases stopping : s.sgu.shift = .stopping
    · obtain ⟨failed, reported⟩ := stopExpired_stopping (s := atExpiry e s) stopping
      rw [if_pos stopping]
      exact ⟨sgu.trans failed, evu.trans reported⟩
    · have other := stopExpired_other (s := atExpiry e s) stopping
      rw [if_neg stopping]
      rw [sgu, evu, other]
      exact ⟨rfl, rfl⟩
  · obtain ⟨t, ht, now, sgu, -, -, writes⟩ :=
      expiry_answered h (now_meshExpired (atExpiry e s)) (onlyWrites_meshExpired _)
    refine ⟨t, ht, now, ?_, writes⟩
    rw [sgu, meshExpired_sgu, now]
    rfl
  · obtain ⟨t, ht, now, sgu, -, -, writes⟩ :=
      expiry_answered h (now_creepExpired (atExpiry e s)) (onlyWrites_creepExpired _)
    refine ⟨t, ht, now, ?_, writes⟩
    rw [sgu, creepExpired_sgu, now]
    rfl

/-! ## ATTEMPT and RETRY (R66, R67) -/

theorem onlyWrites_attemptExpired (s : State) : onlyWrites { sgu := true, evu := true } s (attemptExpired s) := by
  have stopped : onlyWrites { sgu := true, evu := true } s (s.modSgu fun g => { g with attemptTimer := none }) :=
    (onlyWrites_modSgu s _).mono
  unfold attemptExpired
  simp only []
  split
  case h_1 | h_2 => exact stopped.trans (onlyWrites_attemptFails _ _)
  case h_3 => exact stopped.trans (onlyWrites_modSgu _ _).mono
  all_goals exact stopped

theorem now_attemptExpired (s : State) : (attemptExpired s).now = s.now := by
  unfold attemptExpired
  simp only []
  split <;> simp

theorem attemptExpired_meshing {s : State} (h : s.sgu.shift = .shifting ∨ s.sgu.shift = .creeping) :
    attemptExpired s = attemptFails .noMesh (s.modSgu fun g => { g with attemptTimer := none }) := by
  unfold attemptExpired
  rcases h with h | h <;> simp only [State.modSgu_sgu, h]

theorem attemptExpired_confirming {s : State} (h : s.sgu.shift = .confirming) :
    attemptExpired s = s.modSgu fun g => { g with attemptTimer := none, attemptSpent := true } := by
  unfold attemptExpired
  simp only [State.modSgu_sgu, h]
  rfl

theorem attemptExpired_other {s : State} (h : ¬(s.sgu.shift = .shifting ∨ s.sgu.shift = .creeping))
    (hc : s.sgu.shift ≠ .confirming) : attemptExpired s = s.modSgu fun g => { g with attemptTimer := none } := by
  unfold attemptExpired
  simp only [State.modSgu_sgu]
  split
  case h_1 e => exact absurd (.inl e) h
  case h_2 e => exact absurd (.inr e) h
  case h_3 e => exact absurd e hc
  all_goals rfl

theorem onlyWrites_retryExpired (s : State) : onlyWrites { sgu := true, evu := true } s (retryExpired s) := by
  unfold retryExpired
  simp only []
  refine onlyWrites_ite ?_ (onlyWrites_modSgu s _).mono
  have counted := ((onlyWrites_modSgu s fun g => { g with retryTimer := none }).mono.trans
    (onlyWrites_modSgu _ fun g =>
      { g with attempts := g.attempts + 1, meshElapsed := false, attemptSpent := false }).mono).trans
    ((onlyWrites_ileMay _).mono (w' := { sgu := true, evu := true }))
  exact onlyWrites_ite (counted.trans (onlyWrites_modSgu _ _).mono)
    (onlyWrites_ite (counted.trans (onlyWrites_cancelShift _)) (counted.trans rfl))

theorem now_retryExpired (s : State) : (retryExpired s).now = s.now := by
  unfold retryExpired
  simp only []
  refine now_ite ?_ rfl
  have counted := now_ileMay ((s.modSgu fun g => { g with retryTimer := none }).modSgu fun g =>
    { g with attempts := g.attempts + 1, meshElapsed := false, attemptSpent := false })
  exact now_ite counted (now_ite ((now_cancelShift _).trans counted) counted)

/-- The retry of an attempt, with the permissions of the state as it stands (R67, R71). -/
theorem retryExpired_pause {s : State} (pause : s.sgu.shift = .retryPause) (current : s.perms = evalPerms s) :
    retryExpired s =
      let u := s.modSgu fun g =>
        { g with retryTimer := none, attempts := g.attempts + 1, meshElapsed := false, attemptSpent := false }
      if s.perms.gearShift then enterStopping u
      else if s.fsw.state = .linkLost then cancelShift u else enterAwait u := by
  have read : ileMay (s.modSgu fun g =>
      { g with retryTimer := none, attempts := g.attempts + 1, meshElapsed := false, attemptSpent := false }) = _ :=
    ileMay_current current
  unfold retryExpired
  simp only [State.modSgu_sgu, pause, if_true]
  exact congrArg (fun u : State => if u.perms.gearShift then enterStopping u
    else if u.fsw.state = .linkLost then cancelShift u else enterAwait u) read

/-- A cancelled shift leaves the range known, or not (R71). -/
theorem cancelShift_sgu (s : State) : ∃ sensor, (cancelShift s).sgu = { s.sgu with
    purgeWait := false, target := none, retryTimer := none, sensorTimer := sensor
    shift := if s.sgu.current.isSome then .settled else .unknown } := by
  unfold cancelShift
  simp only [raise_sgu, State.modSgu_sgu]
  cases h : s.sgu.current with
  | none => exact ⟨_, by rw [enterUnknown_sgu]; simp only [State.modSgu_sgu, h]; rfl⟩
  | some r => exact ⟨_, by rw [enterSettled_sgu]; simp only [State.modSgu_sgu, h]; rfl⟩

theorem cancelShift_evu (s : State) :
    (cancelShift s).evu = s.evu.take ⟨.shiftCancelled, .spindle, gearNumber s.sgu.target, s.fsw.lastSeq⟩ := by
  unfold cancelShift
  simp only [raise_evu]
  split <;> rfl

/-- Settles O43: an attempt fails, and the next begins, waits or is cancelled. -/
theorem attemptAndRetryTimers : Obligations.AttemptAndRetryTimers := by
  constructor
  · intro s e h
    obtain ⟨t, ht, now, sgu, evu, -, writes⟩ :=
      expiry_answered h (now_attemptExpired (atExpiry e s)) (onlyWrites_attemptExpired _)
    refine ⟨t, ht, now, ?_, writes⟩
    simp only []
    by_cases meshing : s.sgu.shift = .shifting ∨ s.sgu.shift = .creeping
    · rw [if_pos meshing]
      rw [attemptExpired_meshing (s := atExpiry e s) meshing] at sgu evu
      by_cases left : s.sgu.attempts < s.cfg.gear.maxAttempts
      · rw [if_pos left, sgu, evu, now]
        exact attemptFails_retries (s := (atExpiry e s).modSgu _) .noMesh left
      · rw [if_neg left, sgu, evu]
        exact attemptFails_gives_up (s := (atExpiry e s).modSgu _) .noMesh left
    · rw [if_neg meshing]
      by_cases confirming : s.sgu.shift = .confirming
      · rw [if_pos confirming, sgu, evu, attemptExpired_confirming (s := atExpiry e s) confirming]
        exact ⟨rfl, rfl⟩
      · rw [if_neg confirming, sgu, evu, attemptExpired_other (s := atExpiry e s) meshing confirming]
        exact ⟨rfl, rfl⟩
  · intro s e h pause current
    obtain ⟨t, ht, now, sgu, evu, -, writes⟩ :=
      expiry_answered h (now_retryExpired (atExpiry e s)) (onlyWrites_retryExpired _)
    refine ⟨t, ht, now, ?_, writes⟩
    rw [retryExpired_pause (s := atExpiry e s) pause current] at sgu evu
    simp only []
    by_cases granted : s.perms.gearShift = true
    · have act : (atExpiry e s).perms.gearShift = true := granted
      simp only [act, if_true] at sgu evu
      rw [if_pos granted, sgu, evu, now]
      exact ⟨rfl, rfl⟩
    · have act : ¬ (atExpiry e s).perms.gearShift = true := granted
      simp only [if_neg act] at sgu evu
      rw [if_neg granted]
      by_cases lost : s.fsw.state = .linkLost
      · have act : (atExpiry e s).fsw.state = .linkLost := lost
        simp only [act, if_true] at sgu evu
        obtain ⟨sensor, cancelled⟩ := cancelShift_sgu ((atExpiry e s).modSgu fun g =>
          { g with retryTimer := none, attempts := g.attempts + 1, meshElapsed := false, attemptSpent := false })
        rw [if_pos lost, sgu, evu, cancelled, cancelShift_evu]
        exact ⟨rfl, rfl, rfl, rfl, rfl⟩
      · have act : ¬ (atExpiry e s).fsw.state = .linkLost := lost
        simp only [if_neg act] at sgu evu
        rw [if_neg lost, sgu, evu]
        exact ⟨rfl, rfl⟩

end Sys2Proof.Machine.Gearbox
end

section
/-! SUPPORT. The confirm timer and the sensor timer of the gear unit. -/

namespace Sys2Proof.Machine.Gearbox

set_option Elab.async false

/-! ## Pending targets (R65, R69) -/

theorem takePending_none {s : State} (h : s.sgu.pendingTarget = none) : takePending s = s := by
  simp only [takePending, h]

theorem takePending_same {s : State} {r : Gear} (h : s.sgu.pendingTarget = some r) (hc : s.sgu.current = some r) :
    takePending s = s.modSgu fun g => { g with pendingTarget := none } := by
  simp only [takePending, h, State.modSgu_sgu, hc, if_true]

theorem takePending_other {s : State} {r : Gear} (h : s.sgu.pendingTarget = some r) (hc : s.sgu.current ≠ some r) :
    takePending s = startShiftNow r (s.modSgu fun g => { g with pendingTarget := none }) := by
  simp only [takePending, h, State.modSgu_sgu, hc, if_false]

/-- Without a pending target that differs, the pending target is dropped and nothing starts. -/
theorem takePending_idle {s : State} {g : Gear} (hc : s.sgu.current = some g)
    (h : s.sgu.pendingTarget = none ∨ s.sgu.pendingTarget = some g) :
    (takePending s).sgu = { s.sgu with pendingTarget := none } ∧ (takePending s).evu = s.evu ∧
      onlyWrites { sgu := true } s (takePending s) := by
  rcases h with h | h
  · rw [takePending_none h]
    exact ⟨by rw [← h], rfl, onlyWrites_refl _ s⟩
  · rw [takePending_same h hc]
    exact ⟨rfl, rfl, onlyWrites_modSgu s _⟩

/-- A pending target that differs from the range starts the next shift, with the pump off. -/
theorem takePending_starts {s : State} {r : Gear} (h : s.sgu.pendingTarget = some r) (hc : s.sgu.current ≠ some r) :
    (takePending s).sgu.current = s.sgu.current ∧ (takePending s).sgu.target = some r ∧
      (takePending s).sgu.attempts = 1 ∧ (takePending s).sgu.pendingTarget = none ∧
      ((takePending s).sgu.shift = .stopping ∨ (takePending s).sgu.shift = .awaitPermit) ∧
      throughPumpOn (takePending s) = false := by
  rw [takePending_other h hc]
  obtain ⟨sh, stop, sensor, sgu, shift⟩ := startShiftNow_sgu r (s.modSgu fun g => { g with pendingTarget := none })
  rw [sgu]
  exact ⟨rfl, rfl, rfl, rfl, shift, startShiftNow_pump r _⟩

/-! ## Active sensors -/

/-- The only active gear sensor is that of range `g`, if one is active at all. -/
theorem activeGears_of_alone {s : State} {g : Gear} (h : ∀ g', sensorActive s g' = true → g' = g) :
    activeGears s = if sensorActive s g then [g] else [] := by
  have others (g' : Gear) (ne : g' ≠ g) : sensorActive s g' = false := Bool.eq_false_iff.mpr fun a => ne (h g' a)
  unfold activeGears gears
  cases g
  case i => simp [others .ii, others .iii, others .iv, others .neutral, List.filter_cons]
  case ii => simp [others .i, others .iii, others .iv, others .neutral, List.filter_cons]
  case iii => simp [others .i, others .ii, others .iv, others .neutral, List.filter_cons]
  case iv => simp [others .i, others .ii, others .iii, others .neutral, List.filter_cons]
  case neutral => simp [others .i, others .ii, others .iii, others .iv, List.filter_cons]

theorem mem_gears (g : Gear) : g ∈ gears := by cases g <;> decide

theorem activeGears_of_onlyGear {s : State} {g : Gear} (h : onlyGear s = some g) : activeGears s = [g] := by
  unfold onlyGear at h
  split at h
  · rename_i g' e
    rw [e, Option.some.inj h]
  · cases h

/-! ## CONFIRM (R65, R66) -/

/-- The gear record becomes SETTLED in range `g`, which is reported; the shift is over. -/
def settledIn (g : Gear) (s : State) : State :=
  raise .gearSettled .spindle g.number (enterSettled (some g) s)

theorem settledIn_sgu (g : Gear) (s : State) : (settledIn g s).sgu = { s.sgu with
    current := some g, shift := .settled
    sensorTimer := if activeGears s ≠ [g] then some (s.now + 1000 * s.cfg.gear.confirmTime) else none } := by
  have lost : gearLostCond (s.modSgu fun u => { u with current := some g, shift := .settled }) =
      decide (activeGears s ≠ [g]) := rfl
  unfold settledIn
  simp only [raise_sgu, enterSettled_sgu, lost, decide_eq_true_eq]
  rfl

theorem onlyWrites_settledIn (g : Gear) (s : State) : onlyWrites { sgu := true, evu := true } s (settledIn g s) := rfl

/-- The record of a shift that is confirmed, as it enters SETTLED. -/
def shiftOver (s : State) : State :=
  s.modSgu fun g =>
    { g with confirmTimer := none, meshTimer := none, attemptTimer := none, target := none, lastFailure := none }

/-- No sensor but that of `g` is active. -/
def onlySensor (s : State) (g : Gear) : Bool := gears.all fun g' => !sensorActive s g' || decide (g' = g)

theorem onlySensor_iff (s : State) (g : Gear) :
    onlySensor s g = true ↔ ∀ g', sensorActive s g' = true → g' = g := by
  simp only [onlySensor, List.all_eq_true, Bool.or_eq_true, Bool.not_eq_true', decide_eq_true_eq]
  refine ⟨fun h g' a => ?_, fun h g' _ => ?_⟩
  · exact (h g' (mem_gears g')).resolve_left (by simp [a])
  · cases a : sensorActive s g'
    · exact .inl rfl
    · exact .inr (h g' a)

theorem activeGears_all (s : State) (g : Gear) :
    ((activeGears s).all fun g' => decide (some g = some g')) = onlySensor s g := by
  simp only [activeGears, List.all_filter, onlySensor, Option.some.injEq, eq_comm (a := g)]

theorem confirmExpired_alone {s : State} {g : Gear} (confirming : s.sgu.shift = .confirming)
    (target : s.sgu.target = some g) (alone : onlySensor s g = true) :
    confirmExpired s = takePending (settledIn g (shiftOver s)) := by
  have all := (activeGears_all (s.modSgu fun u => { u with confirmTimer := none }) g).trans alone
  unfold confirmExpired
  simp only [State.modSgu_sgu, confirming, if_true, target, all]
  rfl

theorem confirmExpired_conflict {s : State} {g : Gear} (confirming : s.sgu.shift = .confirming)
    (target : s.sgu.target = some g) (conflict : onlySensor s g = false) :
    confirmExpired s = attemptFails .sensorConflict (s.modSgu fun u => { u with confirmTimer := none }) := by
  have all := (activeGears_all (s.modSgu fun u => { u with confirmTimer := none }) g).trans conflict
  unfold confirmExpired
  simp only [State.modSgu_sgu, confirming, if_true, target, all, Bool.false_eq_true, if_false]

theorem onlyWrites_confirmExpired (s : State) :
    onlyWrites { sgu := true, clu := true, evu := true } s (confirmExpired s) := by
  have stopped : onlyWrites { sgu := true, clu := true, evu := true } s
      (s.modSgu fun g => { g with confirmTimer := none }) := (onlyWrites_modSgu s _).mono
  unfold confirmExpired
  simp only []
  refine onlyWrites_ite (onlyWrites_ite ?_ (stopped.trans (onlyWrites_attemptFails _ _).mono)) stopped
  refine onlyWrites.trans ?_ (onlyWrites_takePending _)
  exact stopped.trans ((onlyWrites_modSgu _ _).mono.trans ((onlyWrites_enterSettled _ _).mono.trans
    (onlyWrites_raise _ _ _ _).mono))

theorem now_confirmExpired (s : State) : (confirmExpired s).now = s.now := by
  unfold confirmExpired
  simp only []
  exact now_ite (now_ite (now_takePending _) (now_attemptFails _ _)) rfl

/-- Settles O44: the confirm timer ends the shift in SETTLED, starts the pending one, or finds SENSOR_CONFLICT. -/
theorem confirmTimerEndsShift : Obligations.ConfirmTimerEndsShift := by
  intro s e g h confirming target
  obtain ⟨t, ht, now, sgu, evu, clu, writes⟩ :=
    expiry_answered h (now_confirmExpired (atExpiry e s)) (onlyWrites_confirmExpired _)
  refine ⟨t, ht, now, writes, ?_⟩
  change if onlySensor s g = true then _ else _
  by_cases alone : onlySensor s g = true
  · rw [if_pos alone]
    have settled := confirmExpired_alone (s := atExpiry e s) confirming target alone
    have active : activeGears (shiftOver (atExpiry e s)) = if sensorActive s g then [g] else [] :=
      activeGears_of_alone (s := s) ((onlySensor_iff s g).mp alone)
    have record := settledIn_sgu g (shiftOver (atExpiry e s))
    rw [settled] at sgu evu clu
    refine ⟨fun pending => ?_, fun r pending other => ?_⟩
    · obtain ⟨sgu', evu', writes'⟩ := takePending_idle (congrArg Sgu.current record)
        (by rw [record]; exact pending)
      refine ⟨?_, evu.trans evu', ?_⟩
      · have sensor (x : Timer) : (if activeGears (shiftOver (atExpiry e s)) ≠ [g] then x else none) =
            if sensorActive s g then none else x := by
          rw [active]
          cases sensorActive s g <;> simp
        rw [sgu, sgu', record, sensor, now]
        rfl
      · obtain rfl : finish (confirmExpired (atExpiry e s)) = t :=
          Host.Outcome.next.inj ((answerExpiry_some h confirmExpired s).symm.trans ht)
        rw [settled]
        have ended : onlyWrites { sgu := true, evu := true } s (shiftOver (atExpiry e s)) :=
          (onlyWrites_now _ s _).trans (onlyWrites_modSgu _ _).mono
        exact (ended.trans ((onlyWrites_settledIn g _).trans writes'.mono)).trans (onlyWrites_finish _ _)
    · obtain ⟨current, tgt, attempts, cleared, shift, pump⟩ :=
        takePending_starts (s := settledIn g (shiftOver (atExpiry e s))) (r := r) (by rw [record]; exact pending)
          (by rw [record]; exact fun k => other (Option.some.inj k).symm)
      rw [sgu]
      refine ⟨current.trans (by rw [record]), tgt, attempts, cleared, shift, ?_⟩
      rwa [throughPumpOn, State.circuit, clu]
  · rw [if_neg alone]
    have conflict := confirmExpired_conflict (s := atExpiry e s) confirming target (Bool.eq_false_iff.mpr alone)
    rw [conflict] at sgu evu
    by_cases left : s.sgu.attempts < s.cfg.gear.maxAttempts
    · obtain ⟨sgu', evu'⟩ := attemptFails_retries (s := (atExpiry e s).modSgu fun u => { u with confirmTimer := none })
        .sensorConflict left
      rw [sgu, sgu', evu, evu', now, if_pos left]
      exact ⟨rfl, rfl, fun _ => ⟨rfl, rfl⟩, fun k => absurd left (Nat.not_lt.mpr k)⟩
    · obtain ⟨sgu', evu'⟩ := attemptFails_gives_up (s := (atExpiry e s).modSgu fun u => { u with confirmTimer := none })
        .sensorConflict left
      rw [sgu, sgu', evu, evu', if_neg left]
      refine ⟨rfl, rfl, fun k => absurd k left, fun _ => ⟨rfl, rfl, ?_⟩⟩
      simp only [State.modSgu_sgu, atExpiry, target]
      rfl

/-! ## SENSOR (R69, R70) -/

theorem onlyWrites_takeGearLost (s : State) : onlyWrites { sgu := true, evu := true } s (takeGearLost s) := by
  unfold takeGearLost
  exact ((onlyWrites_modSgu s _).mono.trans (onlyWrites_enterUnknown _).mono).trans
    (onlyWrites_raiseSpindleFault _ _ _ _)

/-- A lost gear is taken: UNKNOWN, with the fault GEAR_LOST unless one stands (R70, R57). -/
theorem takeGearLost_sgu (s : State) : (takeGearLost s).sgu = { s.sgu with
    shift := .unknown, current := none, purgeWait := false, target := none, pendingTarget := none
    sensorTimer := if (onlyGear s).isSome then some (s.now + 1000 * s.cfg.gear.confirmTime) else none
    fault := s.sgu.fault.or (some ⟨.gearLost, 0⟩) } := by
  unfold takeGearLost
  rw [raiseSpindleFault_sgu]
  rfl

theorem takeGearLost_evu (s : State) : (takeGearLost s).evu = s.evu.take
    (if s.sgu.fault.isSome then ⟨.secondFault, .spindle, 7, s.fsw.lastSeq⟩
      else ⟨.gearLost, .spindle, gearNumber s.sgu.current, s.fsw.lastSeq⟩) := by
  unfold takeGearLost raiseSpindleFault
  simp only [enterUnknown_sgu, State.modSgu_sgu]
  cases s.sgu.fault <;> rfl

theorem onlyWrites_sensorExpired (s : State) :
    onlyWrites { sgu := true, clu := true, evu := true } s (sensorExpired s) := by
  have stopped : onlyWrites { sgu := true, clu := true, evu := true } s
      (s.modSgu fun g => { g with sensorTimer := none }) := (onlyWrites_modSgu s _).mono
  unfold sensorExpired
  simp only []
  split
  case h_1 =>
    split
    · exact stopped
    · exact (stopped.trans ((onlyWrites_enterSettled _ _).mono.trans (onlyWrites_raise _ _ _ _).mono)).trans
        (onlyWrites_takePending _)
  case h_2 => exact onlyWrites_ite (stopped.trans (onlyWrites_takeGearLost _).mono) stopped
  all_goals exact stopped

theorem now_sensorExpired (s : State) : (sensorExpired s).now = s.now := by
  unfold sensorExpired
  simp only []
  split
  case h_1 => split <;> first | rfl | exact now_takePending _
  case h_2 => exact now_ite (now_raiseSpindleFault _ _ _ _) rfl
  all_goals rfl

/-- The sensor timer stopped, as its expiry is taken. -/
def sensorStopped (s : State) : State := s.modSgu fun g => { g with sensorTimer := none }

theorem sensorExpired_unknown {s : State} (unknown : s.sgu.shift = .unknown) :
    sensorExpired s =
      match onlyGear s with
      | none => sensorStopped s
      | some g => takePending (settledIn g (sensorStopped s)) := by
  unfold sensorExpired
  simp only [State.modSgu_sgu, unknown]
  rfl

theorem sensorExpired_settled {s : State} (settled : s.sgu.shift = .settled) :
    sensorExpired s = if gearLostCond s then takeGearLost (sensorStopped s) else sensorStopped s := by
  unfold sensorExpired
  simp only [State.modSgu_sgu, settled]
  rfl

theorem sensorExpired_other {s : State} (unknown : s.sgu.shift ≠ .unknown) (settled : s.sgu.shift ≠ .settled) :
    sensorExpired s = sensorStopped s := by
  unfold sensorExpired
  simp only [State.modSgu_sgu]
  split
  case h_1 e => exact absurd e unknown
  case h_2 e => exact absurd e settled
  all_goals rfl

/-- Settles O45: a gear is resolved in UNKNOWN, or taken as lost in SETTLED. -/
theorem sensorTimerResolvesGear : Obligations.SensorTimerResolvesGear := by
  intro s e h
  obtain ⟨t, ht, now, sgu, evu, -, writes⟩ :=
    expiry_answered h (now_sensorExpired (atExpiry e s)) (onlyWrites_sensorExpired _)
  refine ⟨t, ht, now, writes, fun unknown => ?_, fun settled => ?_, fun unknown settled => ?_⟩
  · have act := sensorExpired_unknown (s := atExpiry e s) unknown
    refine ⟨fun none => ?_, fun g only => ?_⟩
    · have act' : sensorExpired (atExpiry e s) = sensorStopped (atExpiry e s) := by
        rw [act, show onlyGear (atExpiry e s) = Option.none from none]
      rw [sgu, evu, act']
      exact ⟨rfl, rfl⟩
    · have act' : sensorExpired (atExpiry e s) = takePending (settledIn g (sensorStopped (atExpiry e s))) := by
        rw [act, show onlyGear (atExpiry e s) = some g from only]
      have active : activeGears (sensorStopped (atExpiry e s)) = [g] := activeGears_of_onlyGear (s := s) only
      have record := settledIn_sgu g (sensorStopped (atExpiry e s))
      rw [active] at record
      simp only [ne_eq, not_true, if_false] at record
      rw [sgu, evu, act']
      refine ⟨fun pending => ?_, fun r pending other => ?_⟩
      · obtain ⟨sgu', evu', -⟩ := takePending_idle (congrArg Sgu.current record) (by rw [record]; exact pending)
        rw [sgu', evu', record]
        exact ⟨rfl, rfl⟩
      · obtain ⟨current, tgt, attempts, cleared, shift, -⟩ :=
          takePending_starts (s := settledIn g (sensorStopped (atExpiry e s))) (r := r) (by rw [record]; exact pending)
            (by rw [record]; exact fun k => other (Option.some.inj k).symm)
        exact ⟨current.trans (by rw [record]), tgt, attempts, cleared, shift⟩
  · have act := sensorExpired_settled (s := atExpiry e s) settled
    have lost : gearLostCond (atExpiry e s) = gearLostCond s := rfl
    refine ⟨fun kept => ?_, fun gone => ?_⟩
    · rw [lost, kept] at act
      rw [sgu, evu, act]
      exact ⟨rfl, rfl⟩
    · rw [lost, gone, if_pos rfl] at act
      rw [sgu, evu, act, takeGearLost_sgu, takeGearLost_evu, now]
      exact ⟨rfl, rfl⟩
  · rw [sgu, evu, sensorExpired_other (s := atExpiry e s) unknown settled]
    exact ⟨rfl, rfl⟩

end Sys2Proof.Machine.Gearbox
end

section
/-! SUPPORT. The close of a return window, and a return of station 6. -/

namespace Sys2Proof.Machine.Gearbox

set_option Elab.async false

/-! ## The close of the open window (R150) -/

/-- The window closed and the missing stations marked, before the echo or the test of the rest condition. -/
def windowMissed (w : Window) (s : State) : State :=
  markStale w.taken (anyOrder ((stations.filter fun st => !w.taken.get st).map missStation)
    (s.modFsw fun f => { f with window := none, windowTimer := none }))

theorem closeWindow_none {s : State} (h : s.fsw.window = none) : closeWindow s = s := by simp only [closeWindow, h]

theorem closeWindow_echo {s : State} {w : Window} {e : EchoStatus} (h : s.fsw.window = some w) (he : w.echo = some e) :
    closeWindow s = sendEcho w.seq e (windowMissed w s) := by
  simp only [closeWindow, h, he, windowMissed]

theorem closeWindow_noEcho {s : State} {w : Window} (h : s.fsw.window = some w) (he : w.echo = none) :
    closeWindow s =
      if (windowMissed w s).fsw.state = .linkLost then testRest (windowMissed w s) else windowMissed w s := by
  simp only [closeWindow, h, he]
  rfl

/-- A station that is missed changes its own record in the Frame Switch, and may leave a fault. -/
theorem missStation_leaves (st : Station) (s : State) :
    (missStation st s).now = s.now ∧ (∃ f, (missStation st s).sgu = { s.sgu with fault := f }) ∧
      ∃ r, (missStation st s).fsw = { s.fsw with stations := r } := by
  have report (u : State) : (reportSilent st u).now = u.now ∧ (∃ f, (reportSilent st u).sgu = { u.sgu with fault := f }) ∧
      ∃ r, (reportSilent st u).fsw = { u.fsw with stations := r } := by
    unfold reportSilent
    cases st with
    | axis a =>
      have whole := onlyWrites_raiseAxisFault a .driveSilent 0 (u.modStation (.axis a) fun r => { r with silent := true })
      have sgu := sgu_kept whole
      have fsw := fsw_kept whole
      refine ⟨?_, ⟨u.sgu.fault, sgu⟩, ⟨_, fsw⟩⟩
      simp only [raiseAxisFault]
      split <;> rfl
    | spindle =>
      have whole := onlyWrites_raiseSpindleFault .driveSilent 0 0
        (u.modStation .spindle fun r => { r with silent := true })
      have fsw := fsw_kept whole
      exact ⟨now_raiseSpindleFault _ _ _ _, ⟨_, raiseSpindleFault_sgu _ _ _ _⟩, ⟨_, fsw⟩⟩
  unfold missStation
  simp only []
  split
  · obtain ⟨now, ⟨f, sgu⟩, r, fsw⟩ := report (s.modStation st fun r => { r with miss := min (r.miss + 1) 255 })
    exact ⟨now, ⟨f, sgu⟩, r, fsw⟩
  · exact ⟨rfl, ⟨_, rfl⟩, _, rfl⟩

/-- The close of the window before its echo: what it leaves of the timebase, of the gear record and of the Frame Switch. -/
theorem windowMissed_leaves (w : Window) (s : State) :
    (windowMissed w s).now = s.now ∧
      (∃ f, (windowMissed w s).sgu =
        { s.sgu with fault := f, stale := !w.taken.spindle, closedStale := !w.taken.spindle }) ∧
      ∃ r, (windowMissed w s).fsw = { s.fsw with window := none, windowTimer := none, stations := r } := by
  have missed := anyOrder_induction
    (P := fun u : State => u.now = s.now ∧ (∃ f, u.sgu = { s.sgu with fault := f }) ∧
      ∃ r, u.fsw = { s.fsw with window := none, windowTimer := none, stations := r })
    (items := (stations.filter fun st => !w.taken.get st).map missStation)
    (s := s.modFsw fun f => { f with window := none, windowTimer := none })
    ⟨rfl, ⟨_, rfl⟩, _, rfl⟩ (fun _ _ h => h) (fun g hg u hu => by
      obtain ⟨st, -, rfl⟩ := List.mem_map.mp hg
      obtain ⟨now, ⟨f, sgu⟩, r, fsw⟩ := hu
      obtain ⟨now', ⟨f', sgu'⟩, r', fsw'⟩ := missStation_leaves st u
      exact ⟨now'.trans now, ⟨f', by rw [sgu', sgu]⟩, r', by rw [fsw', fsw]⟩)
  obtain ⟨now, ⟨f, sgu⟩, fsw⟩ := missed
  exact ⟨now, ⟨f, by simp only [windowMissed, markStale, sgu]⟩, fsw⟩

theorem anyOrder_nil (s : State) : anyOrder [] s = s := by simp [anyOrder, runAll]

/-- With every station taken, only the stale marks are left to set. -/
theorem windowMissed_full {w : Window} (full : ∀ st, w.taken.get st = true) (s : State) :
    windowMissed w s = markStale w.taken (s.modFsw fun f => { f with window := none, windowTimer := none }) := by
  have none : (stations.filter fun st => !w.taken.get st) = [] := by simp [full]
  rw [windowMissed, none, List.map_nil, anyOrder_nil]

/-- The test of the rest condition (R155) may bring the bridge to STANDBY, with the stopping mark. -/
theorem testRest_leaves (s : State) :
    (testRest s).now = s.now ∧ (∃ b, (testRest s).sgu = { s.sgu with stopping := b }) ∧
      ∃ st rr t, (testRest s).fsw = { s.fsw with state := st, runRelease := rr, restTimer := t } := by
  unfold testRest
  split
  · split
    · exact ⟨rfl, ⟨_, rfl⟩, _, _, _, rfl⟩
    · split
      · exact ⟨rfl, ⟨_, rfl⟩, _, _, _, rfl⟩
      · exact ⟨rfl, ⟨_, rfl⟩, _, _, _, rfl⟩
  · exact ⟨rfl, ⟨_, rfl⟩, _, _, _, rfl⟩

/-- The close of a window from the state `windowMissed` on: an echo for the cycle of a command frame, and a bridge state
that only the rest condition changes. -/
theorem closeWindow_leaves {s : State} {w : Window} (h : s.fsw.window = some w) :
    (closeWindow s).now = (windowMissed w s).now ∧
      (∃ b, (closeWindow s).sgu = { (windowMissed w s).sgu with stopping := b }) ∧
      (closeWindow s).fsw.cPort.count = s.fsw.cPort.count + echoesDue s ∧
      ∃ st rr t re p, (closeWindow s).fsw = { (windowMissed w s).fsw with
        state := st, runRelease := rr, restTimer := t, restart := re, cPort := p } := by
  obtain ⟨-, -, r, fsw⟩ := windowMissed_leaves w s
  have due : echoesDue s = if w.echo.isSome then 1 else 0 := by simp only [echoesDue, h]
  cases he : w.echo with
  | some e =>
    rw [closeWindow_echo h he, due, he]
    refine ⟨rfl, ⟨_, rfl⟩, ?_, _, _, _, _, _, rfl⟩
    simp only [sendEcho, Port.sent, fsw, Option.isSome_some, if_true]
  | none =>
    rw [closeWindow_noEcho h he, due, he]
    simp only [Option.isSome_none, Bool.false_eq_true, if_false, Nat.add_zero]
    split
    · obtain ⟨now, sgu, st, rr, t, e⟩ := testRest_leaves (windowMissed w s)
      refine ⟨now, sgu, ?_, st, rr, t, _, _, e⟩
      rw [e, fsw]
    · exact ⟨rfl, ⟨_, rfl⟩, by rw [fsw], _, _, _, _, _, rfl⟩

/-! ## A return of station 6 (R56, R57, R62, R63) -/

/-- Drive status of a return (R57): a FAULT raises DRIVE_FAULT once. -/
theorem spindleDriveStatus_sgu (status : Nat) (code : Byte) (s : State) :
    (spindleDriveStatus status code s).sgu = { s.sgu with
      driveFaultMem := decide (status = 3)
      fault := s.sgu.fault.or
        (if status = 3 ∧ s.sgu.driveFaultMem = false then some ⟨.driveFault, code⟩ else none) } := by
  unfold spindleDriveStatus
  by_cases fault : status = 3
  · cases memory : s.sgu.driveFaultMem
    · simp [fault, raiseSpindleFault_sgu]
    · have same : s.sgu = { s.sgu with driveFaultMem := true } := by rw [← memory]
      simpa [fault, memory] using same
  · simp [fault]

theorem onlyWrites_spindleDriveStatus (status : Nat) (code : Byte) (s : State) :
    onlyWrites { sgu := true, evu := true } s (spindleDriveStatus status code s) := by
  unfold spindleDriveStatus
  exact onlyWrites_ite (onlyWrites_ite (onlyWrites_refl _ s)
    ((onlyWrites_modSgu s _).mono.trans (onlyWrites_raiseSpindleFault _ _ _ _))) (onlyWrites_modSgu s _).mono

theorem now_spindleDriveStatus (status : Nat) (code : Byte) (s : State) :
    (spindleDriveStatus status code s).now = s.now :=
  now_ite (now_ite rfl (now_raiseSpindleFault _ _ _ _)) rfl

/-- The entry to SHIFTING, or straight to CONFIRMING (R63, R65). -/
theorem enterShifting_sgu (s : State) : (enterShifting s).sgu = { s.sgu with
    current := none, shift := if targetSensed s then .confirming else .shifting
    meshTimer := s.startMs s.cfg.gear.meshTime, attemptTimer := s.startMs s.cfg.gear.attemptTimeout
    creepTimer := if targetSensed s then none else s.sgu.creepTimer
    confirmTimer := if targetSensed s then s.startMs s.cfg.gear.confirmTime else s.sgu.confirmTimer } := by
  have sensed : targetSensed (s.modSgu fun g =>
      { g with shift := .shifting, current := none, meshTimer := s.startMs s.cfg.gear.meshTime,
               attemptTimer := s.startMs s.cfg.gear.attemptTimeout }) = targetSensed s := rfl
  unfold enterShifting
  simp only [sensed]
  cases targetSensed s <;> rfl

theorem standstill_congr {s t : State} (actual : t.sgu.actual = s.sgu.actual) (cfg : t.cfg = s.cfg) :
    standstill t = standstill s := by
  simp only [standstill, actual, cfg]

theorem targetSensed_congr {s t : State} (target : t.sgu.target = s.sgu.target) (cfg : t.cfg = s.cfg)
    (inputs : t.iou.inputs = s.iou.inputs) : targetSensed t = targetSensed s := by
  simp only [targetSensed, sensorActive, State.input, target, cfg, inputs]

/-- The gear record that a return of station 6 leaves (R56, R57, R62, R63). -/
def gearReturned (actual : Int) (status : Nat) (code : Byte) (s : State) : Sgu :=
  let rest := decide (actual.natAbs ≤ s.cfg.gear.stopThreshold)
  let drive := if status = 3 ∧ s.sgu.driveFaultMem = false then some (SpindleFault.mk .driveFault code) else none
  let g : Sgu := { s.sgu with
    actual := actual, stale := false, returned := true, driveFaultMem := decide (status = 3)
    fault := s.sgu.fault.or drive, stopping := s.sgu.stopping && !rest }
  let shifted : Sgu := { g with
    stopTimer := none, current := none
    shift := if targetSensed s then .confirming else .shifting
    meshTimer := s.startMs s.cfg.gear.meshTime, attemptTimer := s.startMs s.cfg.gear.attemptTimeout
    creepTimer := if targetSensed s then none else g.creepTimer
    confirmTimer := if targetSensed s then s.startMs s.cfg.gear.confirmTime else g.confirmTimer }
  if s.sgu.shift = .stopping ∧ rest then shifted else g

/-- A return that is taken clears the stale mark at once (R56). -/
theorem gearReturned_stale (actual : Int) (status : Nat) (code : Byte) (s : State) :
    (gearReturned actual status code s).stale = false := by
  unfold gearReturned
  simp only []
  split <;> rfl

/-- A window that closes with station 6 taken leaves both stale marks clear. -/
theorem closedFresh {g : Sgu} (h : g.stale = false) :
    { g with stale := false, closedStale := false } = { g with closedStale := false } := by rw [← h]

theorem spindleReturn_sgu (actual : Int) (status : Nat) (code : Byte) (s : State) :
    (spindleReturn actual status code s).sgu = gearReturned actual status code s := by
  have whole := onlyWrites_spindleDriveStatus status code
    (s.modSgu fun g => { g with actual := actual, stale := false, returned := true })
  have cfg := cfg_kept whole
  have sgu := spindleDriveStatus_sgu status code
    (s.modSgu fun g => { g with actual := actual, stale := false, returned := true })
  have now := now_spindleDriveStatus status code
    (s.modSgu fun g => { g with actual := actual, stale := false, returned := true })
  have target := congrArg Sgu.target sgu
  have sensed := targetSensed_congr (s := s) target cfg (inputs_kept whole)
  unfold spindleReturn gearReturned
  generalize spindleDriveStatus status code _ = u at *
  have still : standstill u = decide (actual.natAbs ≤ s.cfg.gear.stopThreshold) := by
    simp only [standstill, cfg, sgu, State.modSgu_sgu, State.modSgu_cfg]
  have stopping : u.sgu.shift = s.sgu.shift := by rw [sgu]; rfl
  have sensed' : targetSensed (u.modSgu fun g => { g with stopTimer := none }) = targetSensed s := sensed
  simp only [still, stopping]
  by_cases atRest : actual.natAbs ≤ s.cfg.gear.stopThreshold
  · by_cases shift : s.sgu.shift = .stopping
    · have fast : standstill (enterShifting (u.modSgu fun g => { g with stopTimer := none })) = true := by
        have kept := cfg_kept (onlyWrites_enterShifting (u.modSgu fun g => { g with stopTimer := none }))
        have record := enterShifting_sgu (u.modSgu fun g => { g with stopTimer := none })
        have same := standstill_congr (s := u) (by rw [record]; rfl) kept
        rw [same, still, decide_eq_true atRest]
      simp only [shift, atRest, decide_true, and_self, if_true, fast, State.modSgu_sgu, enterShifting_sgu, sensed',
        Bool.not_true, Bool.and_false, State.startMs, State.modSgu_now, State.modSgu_cfg, cfg, now, sgu]
    · simp only [shift, atRest, decide_true, false_and, if_false, still, if_true, State.modSgu_sgu, Bool.not_true,
        Bool.and_false, sgu]
      rfl
  · simp only [atRest, decide_false, Bool.false_eq_true, and_false, if_false, still, Bool.not_false, Bool.and_true, sgu,
      State.modSgu_sgu]
    rfl

theorem now_spindleReturn (actual : Int) (status : Nat) (code : Byte) (s : State) :
    (spindleReturn actual status code s).now = s.now := by
  have taken := now_spindleDriveStatus status code
    (s.modSgu fun g => { g with actual := actual, stale := false, returned := true })
  have shifting (u : State) : (enterShifting u).now = u.now := now_ite rfl rfl
  have shifted : ∀ u : State, (if u.sgu.shift = .stopping ∧ standstill u then
      enterShifting (u.modSgu fun g => { g with stopTimer := none }) else u).now = u.now :=
    fun u => now_ite (shifting _) rfl
  unfold spindleReturn
  simp only []
  exact now_ite ((shifted _).trans taken) ((shifted _).trans taken)

/-! ## The return at the Frame Switch (R149, R150) -/

theorem onlyWrites_driveReply (st : Station) (g : Segment) (s : State) : onlyWrites { svr := true } s (driveReply st g s) :=
  onlyWrites_ite (onlyWrites_modSvr s _) (onlyWrites_refl _ s)

theorem now_driveReply (st : Station) (g : Segment) (s : State) : (driveReply st g s).now = s.now := now_ite rfl rfl

/-- The parts of a return of station 6 at their owners. -/
theorem handOver_spindle {r : ReturnFrame} (h : r.station = .spindle) (s : State) :
    (handOver r s).now = s.now ∧ (handOver r s).sgu = gearReturned r.actual r.status r.code s ∧
      onlyWrites { sgu := true, svr := true, evu := true } s (handOver r s) := by
  have whole := (onlyWrites_spindleReturn r.actual r.status r.code s).mono (w' := { sgu := true, svr := true, evu := true })
  have now := now_spindleReturn r.actual r.status r.code s
  have sgu := spindleReturn_sgu r.actual r.status r.code s
  unfold handOver
  simp only [h]
  cases r.segment with
  | none => exact ⟨now, sgu, whole⟩
  | some g =>
    have reply := onlyWrites_driveReply .spindle g (spindleReturn r.actual r.status r.code s)
    exact ⟨(now_driveReply _ g _).trans now, (sgu_kept reply).trans sgu, whole.trans reply.mono⟩

theorem takeReturn_eq {r : ReturnFrame} {s : State} {w : Window}
    (h : (handOver r (takeStation r.station s)).fsw.window = some w) :
    takeReturn r s = if windowFull w then closeWindow (handOver r (takeStation r.station s))
      else handOver r (takeStation r.station s) := by
  simp only [takeReturn, h]

/-- The state with the return of station 6 taken, before the window may close. -/
theorem spindleReturn_taken {r : ReturnFrame} {s : State} {w : Window} (st : r.station = .spindle)
    (open_ : s.fsw.window = some w) :
    let u := handOver r (takeStation r.station s)
    u.now = s.now ∧ u.sgu = gearReturned r.actual r.status r.code s ∧
      u.fsw = { s.fsw with
        stations := s.fsw.stations.set .spindle ⟨0, true, false⟩
        window := some { w with taken := w.taken.set .spindle true } } ∧
      onlyWrites { fsw := true, sgu := true, svr := true, evu := true } s u := by
  obtain ⟨now, sgu, whole⟩ := handOver_spindle st (takeStation r.station s)
  have taken : onlyWrites { fsw := true, sgu := true, svr := true, evu := true } s (takeStation r.station s) := rfl
  refine ⟨now, sgu.trans rfl, (fsw_kept whole).trans ?_, taken.trans whole.mono⟩
  rw [st]
  simp only [takeStation, State.modStation, State.modFsw, open_, Option.map_some]

/-- Settles O33: a return of station 6 is taken, and may close the window. -/
theorem spindleReturnTaken : Obligations.SpindleReturnTaken := by
  intro data r w s passes station isOpen seq fresh
  have fits : returnFits r s = true := by simp [returnFits, isOpen, seq, station, fresh]
  have act : returnArrives data s = takeReturn r s := by simp only [returnArrives, passes, fits, if_true]
  obtain ⟨now, sgu, fsw, whole⟩ := spindleReturn_taken station isOpen
  have step := takeReturn_eq (congrArg Fsw.window fsw)
  generalize handOver r (takeStation r.station s) = u at now sgu fsw whole step
  have window : u.fsw.window = some { w with taken := w.taken.set .spindle true } := congrArg Fsw.window fsw
  have full : windowFull { w with taken := w.taken.set .spindle true } = true ↔
      ∀ st, st ≠ .spindle → w.taken.get st = true := by
    simp only [windowFull, stations, List.all_cons, List.all_nil, Bool.and_eq_true, and_true]
    refine ⟨fun ⟨x, y, z, v, b, _⟩ st ne => ?_, fun h => ⟨h (.axis .x) nofun, h (.axis .y) nofun, h (.axis .z) nofun,
      h (.axis .w) nofun, h (.axis .b) nofun, rfl⟩⟩
    cases st with
    | axis a => cases a <;> assumption
    | spindle => exact absurd rfl ne
  refine ⟨finish (takeReturn r s), by rw [← act]; rfl, ?_⟩
  change _ ∧ _ ∧ _ ∧ (_ → (finish (takeReturn r s)).sgu = gearReturned r.actual r.status r.code s ∧ _) ∧
    (_ → { (finish (takeReturn r s)).sgu with stopping := (gearReturned r.actual r.status r.code s).stopping } =
      { gearReturned r.actual r.status r.code s with closedStale := false } ∧ _)
  simp only [finish_now, finish_fsw, finish_sgu]
  by_cases last : ∀ st, st ≠ .spindle → w.taken.get st = true
  · rw [if_pos (full.mpr last)] at step
    rw [step]
    have all (st : Station) : (w.taken.set .spindle true).get st = true := by
      by_cases e : st = .spindle
      · rw [e]; rfl
      · rw [PerStation.get_set_other _ _ _ _ e]; exact last st e
    obtain ⟨now', ⟨b, sgu'⟩, echoes, st, rr, tm, re, p, fsw'⟩ := closeWindow_leaves window
    rw [windowMissed_full all] at now' sgu' fsw'
    have due : echoesDue u = echoesDue s := by simp only [echoesDue, window, isOpen]
    have count := congrArg (fun f => f.cPort.count) fsw
    have stations := congrArg Fsw.stations fsw
    have counters := congrArg Fsw.counters fsw
    refine ⟨now'.trans now, ?_, ?_, fun ⟨st, ne, k⟩ => absurd (k.symm.trans (last st ne)) Bool.false_ne_true, fun _ =>
      ⟨?_, by rw [fsw']; rfl, by rw [fsw']; rfl, ?_⟩⟩
    · rw [fsw']; exact stations
    · rw [fsw']; exact counters
    · rw [sgu']
      exact (congrArg (fun g : Sgu => { g with stale := false, closedStale := false
                                               stopping := (gearReturned r.actual r.status r.code s).stopping }) sgu).trans
        (closedFresh (gearReturned_stale _ _ _ s))
    · rw [echoes, due]; exact congrArg (· + echoesDue s) count
  · rw [if_neg fun k => last (full.mp k)] at step
    rw [step]
    refine ⟨now, by rw [fsw], by rw [fsw], fun _ => ⟨sgu, fsw, whole.trans (onlyWrites_finish _ u)⟩, fun k => absurd k last⟩

end Sys2Proof.Machine.Gearbox
end

section
/-! SUPPORT. What the parts of a self-paced frame leave: the timebase, the holds of a lost link, and what has been
reported. -/

namespace Sys2Proof.Machine.Gearbox

set_option Elab.async false

/-! ## Reports stand while records are only taken (R194) -/

theorem reported_take {c : Code} {src : Source} {v : Evu} (e : EventRec) (h : reported c src v) :
    reported c src (v.take e) := by
  unfold reported at h ⊢
  unfold Evu.take
  have grows {l : List EventRec} {flag : Bool} (cap : Nat)
      (h : (∃ g ∈ l, g.code = c ∧ g.source = src) ∨ flag = true) :
      (∃ g ∈ (takeEvent cap l flag e).1, g.code = c ∧ g.source = src) ∨ (takeEvent cap l flag e).2 = true := by
    rcases takeEvent_cases cap l flag e with ⟨-, k⟩ | ⟨-, -, k⟩ | ⟨-, -, k⟩ <;> rw [k]
    · exact h
    · exact h.imp_left fun ⟨g, hg, same⟩ => ⟨g, List.mem_append_left _ hg, same⟩
    · exact .inr rfl
  by_cases urgent : c.urgent = true
  · rw [if_pos urgent] at h ⊢
    split
    · exact grows 8 h
    · exact h
  · rw [if_neg urgent] at h ⊢
    split
    · exact h
    · exact grows 24 h

/-- A record that is raised stands in its list, or the list has overflowed. -/
theorem reported_raised (c : Code) (src : Source) (d : Nat) (q : Option Byte) (v : Evu) :
    reported c src (v.take ⟨c, src, d, q⟩) := by
  have stands (cap : Nat) (l : List EventRec) (flag : Bool) :
      (∃ g ∈ (takeEvent cap l flag ⟨c, src, d, q⟩).1, g.code = c ∧ g.source = src) ∨
        (takeEvent cap l flag ⟨c, src, d, q⟩).2 = true := by
    rcases takeEvent_cases cap l flag ⟨c, src, d, q⟩ with ⟨dup, k⟩ | ⟨-, -, k⟩ | ⟨-, -, k⟩ <;> rw [k]
    · obtain ⟨g, hg, same⟩ := List.any_eq_true.mp dup
      simp only [EventRec.dup, Bool.and_eq_true, decide_eq_true_eq] at same
      exact .inl ⟨g, hg, same.1.symm, same.2.symm⟩
    · exact .inl ⟨_, List.mem_append_right _ List.mem_cons_self, rfl, rfl⟩
    · exact .inr rfl
  unfold reported Evu.take
  by_cases urgent : c.urgent = true
  · rw [if_pos urgent, if_pos urgent]; exact stands 8 _ _
  · rw [if_neg urgent, if_neg urgent]; exact stands 24 _ _

/-! ## The relation and its calculus -/

/-- From `s` to `t` the timebase stands, LINK_LOST stands on the axes as before, STANDBY has been placed on none, and what
has been reported still is. -/
structure PartKeeps (s t : State) : Prop where
  now : t.now = s.now
  linkLost : ∀ a, (t.axis a).holds.linkLost = (s.axis a).holds.linkLost
  standby : ∀ a, (s.axis a).holds.standby = false → (t.axis a).holds.standby = false
  reported : ∀ c src, reported c src s.evu → reported c src t.evu

theorem PartKeeps.refl (s : State) : PartKeeps s s := ⟨rfl, fun _ => rfl, fun _ => id, fun _ _ => id⟩

theorem PartKeeps.trans {s t u : State} (h : PartKeeps s t) (k : PartKeeps t u) : PartKeeps s u :=
  ⟨k.now.trans h.now, fun a => (k.linkLost a).trans (h.linkLost a), fun a p => k.standby a (h.standby a p),
    fun c src p => k.reported c src (h.reported c src p)⟩

theorem PartKeeps.ite {c : Prop} [Decidable c] {s t u : State} (ht : PartKeeps s t) (hu : PartKeeps s u) :
    PartKeeps s (if c then t else u) := by
  by_cases h : c
  · rwa [if_pos h]
  · rwa [if_neg h]

/-- Timebase, axes and event lists stand, whatever else changes. -/
theorem PartKeeps.same {s t u : State} (h : PartKeeps s t) (now : u.now = t.now := by rfl)
    (axes : u.axes = t.axes := by rfl) (evu : u.evu = t.evu := by rfl) : PartKeeps s u := by
  refine h.trans ⟨now, fun a => ?_, fun a p => ?_, fun c src p => by rwa [evu]⟩
  · simp only [State.axis, axes]
  · simpa only [State.axis, axes] using p

theorem PartKeeps.raise {s t : State} (h : PartKeeps s t) (c : Code) (src : Source) (d : Nat) :
    PartKeeps s (raise c src d t) :=
  h.trans ⟨rfl, fun _ => rfl, fun _ => id, fun _ _ => reported_take _⟩

theorem PartKeeps.modSgu {s t : State} (h : PartKeeps s t) (g : Sgu → Sgu) : PartKeeps s (t.modSgu g) := h.same

theorem axis_modAxis_self (s : State) (a : Axis) (g : AxisRec → AxisRec) : (s.modAxis a g).axis a = g (s.axis a) :=
  PerAxis.get_set_self _ a _

theorem axis_modAxis_other (s : State) {a other : Axis} (g : AxisRec → AxisRec) (h : other ≠ a) :
    (s.modAxis a g).axis other = s.axis other := PerAxis.get_set_other _ a other _ h

/-- An axis record that keeps LINK_LOST and does not come to stand on STANDBY. -/
theorem PartKeeps.modAxis {s t : State} (h : PartKeeps s t) (a : Axis) (g : AxisRec → AxisRec)
    (linkLost : ∀ r, (g r).holds.linkLost = r.holds.linkLost := by intro r; rfl)
    (standby : ∀ r : AxisRec, r.holds.standby = false → (g r).holds.standby = false := by intro r h; exact h) :
    PartKeeps s (t.modAxis a g) := by
  refine h.trans ⟨rfl, fun c => ?_, fun c p => ?_, fun _ _ => id⟩ <;> by_cases e : c = a
  · rw [e, axis_modAxis_self, linkLost]
  · rw [axis_modAxis_other t g e]
  · rw [e] at p ⊢; rw [axis_modAxis_self]; exact standby _ p
  · rw [axis_modAxis_other t g e]; exact p

theorem PartKeeps.ileEval {s t : State} (h : PartKeeps s t) : PartKeeps s (ileEval t) :=
  h.trans ⟨rfl, fun a => by rw [ileEval_axis], fun a p => by rw [ileEval_axis]; exact p, fun _ _ => id⟩

theorem PartKeeps.ileMay {s t : State} (h : PartKeeps s t) : PartKeeps s (ileMay t) := by
  have counted : PartKeeps s { t with free := t.free + 1 } := h.same
  rcases ileMay_cases t with e | e | e <;> rw [e]
  · exact h
  · exact counted
  · exact counted.ileEval

theorem PartKeeps.anyOrder {items : List (State → State)} (h : ∀ g ∈ items, ∀ u, PartKeeps u (g u)) (s : State) :
    PartKeeps s (anyOrder items s) :=
  anyOrder_induction (P := PartKeeps s) (.refl s) (fun _ _ hu => hu.same) fun g hg u hu => hu.trans (h g hg u)

/-! ## An axis conditioner in a drive frame -/

theorem PartKeeps.setClampHold {s t : State} (h : PartKeeps s t) (a : Axis) : PartKeeps s (setClampHold a t) :=
  h.modAxis a fun r => { r with holds := { r.holds with
    clamp := decide ((t.axis a).clamp ≠ .free) || clampRequested t a } }

theorem partKeeps_clampIfRequested (a : Axis) (f : Follower) (s : State) : PartKeeps s (clampIfRequested a f s) := by
  rcases clampIfRequested_cases a f s with e | ⟨c, _, _, _, _, _, e⟩ <;> rw [e]
  · exact .refl s
  · exact (PartKeeps.refl s).modAxis a _

theorem partKeeps_axisTake (a : Axis) (cmd : Option AxisCmd) (s : State) : PartKeeps s (axisTake a cmd s) := by
  have unclamp (u : State) : PartKeeps u (unclampIfPermitted a u) :=
    .ite ((PartKeeps.refl u).modAxis a _) (.refl u)
  have slot : PartKeeps s (match cmd with
      | none => s
      | some c => s.modAxis a fun r => { r with slot := c.slot }) := by
    cases cmd with
    | none => exact .refl s
    | some c => exact (PartKeeps.refl s).modAxis a _
  unfold axisTake
  exact ((slot.modAxis a _).ileMay.setClampHold a).trans (unclamp _)

theorem partKeeps_axisOverlay (a : Axis) (cmd : Option AxisCmd) (s : State) : PartKeeps s (axisOverlay a cmd s) := by
  have increment (u : State) : PartKeeps u (applyIncrement a u) := by
    unfold applyIncrement
    simp only []
    refine .ite (.ite ?_ (.raise ?_ _ _ _)) ?_
    all_goals exact (PartKeeps.refl u).modAxis a _
  unfold axisOverlay
  exact ((PartKeeps.refl s).modAxis a _).trans (increment _)

/-- A follower that goes DISABLED drops STANDBY (R35); the step rules place no hold. -/
theorem partKeeps_axisMove (a : Axis) (s : State) : PartKeeps s (axisMove a s) := by
  unfold axisMove
  simp only []
  have moved (o : StepOut) (f t w : Int) (enable cut : Bool) : PartKeeps s (s.modAxis a fun r =>
      { r with
        follower := o.follower, f := f, s := o.step, t := t, w := w, arrived := o.arrived
        enableFwd := enable, windowClamp := cut
        holds := if o.follower = .disabled then { r.holds with standby := false } else r.holds }) := by
    refine (PartKeeps.refl s).modAxis a _ (fun r => ?_) (fun r h => ?_)
    · dsimp only; split <;> rfl
    · dsimp only; split
      · rfl
      · exact h
  refine .ite (.raise (.ite (.raise ?_ _ _ _) ?_) _ _ _) (.ite (.raise ?_ _ _ _) ?_)
  all_goals exact moved _ _ _ _ _ _

theorem partKeeps_compensate (a : Axis) (q : Byte) (s : State) : PartKeeps s (compensate a q s) := by
  unfold compensate
  exact (PartKeeps.refl s).modAxis a _

theorem partKeeps_axisFrame (a : Axis) (cmd : Option AxisCmd) (q : Byte) (s : State) :
    PartKeeps s (axisFrame a cmd q s) := by
  have moved := ((partKeeps_axisTake a cmd s).trans (partKeeps_axisOverlay a cmd _)).trans (partKeeps_axisMove a _)
  exact (moved.trans (partKeeps_clampIfRequested a .disabled _)).trans (partKeeps_compensate a q _)

theorem partKeeps_axisFrameEnd (a : Axis) (s : State) : PartKeeps s (axisFrameEnd a s) := by
  unfold axisFrameEnd
  simp only []
  refine PartKeeps.trans (PartKeeps.modAxis ?_ a _) (partKeeps_clampIfRequested a .held _)
  exact .ite ((PartKeeps.refl s).modAxis a _ (fun _ => rfl) fun _ _ => rfl) (.refl s)

/-! ## The gear unit and the coolant unit in a drive frame -/

theorem partKeeps_readGearShift (s : State) : PartKeeps s (readGearShift s) :=
  .ite ((PartKeeps.refl s).ileMay.modSgu _) (((PartKeeps.refl s).ileMay.modSgu _).raise _ _ _)

theorem partKeeps_answerPurge (s : State) : PartKeeps s (answerPurge s) := by
  have purged : PartKeeps s (takePurgeRequest s) := .ite (PartKeeps.refl s).same (.refl s)
  exact .ite ((purged.modSgu _).trans (partKeeps_readGearShift _)) (.refl s)

theorem partKeeps_spindleFrame_none (s : State) : PartKeeps s (spindleFrame none s) := by
  have read (u : State) : PartKeeps u (awaitRead u) := .ite ((PartKeeps.refl u).modSgu _) (.refl u)
  have formed := (PartKeeps.refl s).ileMay.trans (read _)
  unfold spindleFrame
  exact (formed.modSgu _).trans (partKeeps_answerPurge _)

theorem partKeeps_stageChannel (ch : Channel) (s : State) : PartKeeps s (stageChannel ch s) := by
  cases ch <;> exact (PartKeeps.refl s).same

theorem partKeeps_stopTest (i : CoolantIn) (c : Circuit) (s : State) : PartKeeps s (stopTest i c s) := by
  have stopped : PartKeeps s (stopCircuit c s) := by cases c <;> exact (PartKeeps.refl s).same
  unfold stopTest
  exact .ite (.ite (stopped.raise _ _ _) (.ite (stopped.raise _ _ _) stopped)) (.refl s)

theorem partKeeps_startTest (i : CoolantIn) (c : Circuit) (s : State) : PartKeeps s (startTest i c s) := by
  have started : PartKeeps s (startCircuit c s) := by
    unfold startCircuit
    refine .ite ?_ ?_
    all_goals cases c <;> exact (PartKeeps.refl s).same
  exact .ite started (.refl s)

theorem partKeeps_coolantFrame (cmd : Option CoolantCmd) (s : State) : PartKeeps s (coolantFrame cmd s) := by
  have taken : PartKeeps s (takeCoolant cmd s) := by cases cmd <;> exact (PartKeeps.refl s).same
  have stopped (i : CoolantIn) (u : State) := ((partKeeps_stopTest i .flood u).trans (partKeeps_stopTest i .through _)).trans
    (partKeeps_stopTest i .air _)
  have started (i : CoolantIn) (u : State) := ((partKeeps_startTest i .through u).trans (partKeeps_startTest i .air _)).trans
    (partKeeps_startTest i .flood _)
  unfold coolantFrame
  exact ((taken.trans (stopped _ _)).trans (started _ _)).trans
    ((partKeeps_stageChannel .pw0 _).trans (partKeeps_stageChannel .pw1 _))

/-! ## A self-paced frame -/

theorem partKeeps_selfPacedParts (q : Byte) : ∀ g ∈ frameParts .none q, ∀ u, PartKeeps u (g u) := by
  intro g hg u
  simp only [frameParts, List.mem_cons, List.not_mem_nil, or_false] at hg
  rcases hg with rfl | rfl | rfl | rfl | rfl | rfl | rfl | rfl
  iterate 5 exact (partKeeps_axisFrame _ _ q u).ileEval
  · exact (partKeeps_spindleFrame_none u).ileEval
  · exact (partKeeps_coolantFrame _ u).ileEval
  · exact .refl u

theorem partKeeps_frameLeaves (q : Byte) (e : Option EchoStatus) (s : State) : PartKeeps s (frameLeaves q e s) := by
  unfold frameLeaves
  simp only []
  refine PartKeeps.trans ?_ ((partKeeps_axisFrameEnd .x _).trans ((partKeeps_axisFrameEnd .y _).trans
    ((partKeeps_axisFrameEnd .z _).trans ((partKeeps_axisFrameEnd .w _).trans (partKeeps_axisFrameEnd .b _)))))
  exact (PartKeeps.refl s).same

/-- The Frame Switch as a drive frame leaves (R147, R148). -/
theorem frameLeaves_fsw (q : Byte) (e : Option EchoStatus) (s : State) :
    (frameLeaves q e s).fsw = { s.fsw with
      ownSeq := q, window := some ⟨q, .all false, e⟩, windowTimer := s.startUs s.cfg.link.period
      dPort := s.fsw.dPort.sent (driveBytes q s)
      periodTimer := if e.isSome then none else periodAfter s } := by
  have ends (u : State) : (axisFrameEnd .b (axisFrameEnd .w (axisFrameEnd .z (axisFrameEnd .y
      (axisFrameEnd .x (segmentsLeave u)))))).fsw = u.fsw := by
    rw [fsw_kept (onlyWrites_axisFrameEnd .b _), fsw_kept (onlyWrites_axisFrameEnd .w _),
      fsw_kept (onlyWrites_axisFrameEnd .z _), fsw_kept (onlyWrites_axisFrameEnd .y _),
      fsw_kept (onlyWrites_axisFrameEnd .x _)]
    rfl
  unfold frameLeaves
  simp only []
  rw [ends]

theorem onlyWrites_selfPacedParts (q : Byte) : ∀ g ∈ frameParts .none q, ∀ u,
    onlyWrites { axes := true, sgu := true, clu := true, evu := true } u (g u) := by
  intro g hg u
  simp only [frameParts, List.mem_cons, List.not_mem_nil, or_false] at hg
  rcases hg with rfl | rfl | rfl | rfl | rfl | rfl | rfl | rfl
  iterate 5 exact (onlyWrites_axisFrame _ _ q u).mono.trans (onlyWrites_ileEval _).mono
  · exact (onlyWrites_spindleFrame _ u).mono.trans (onlyWrites_ileEval _).mono
  · exact (onlyWrites_coolantFrame _ u).mono.trans (onlyWrites_ileEval _).mono
  · exact onlyWrites_refl _ u

theorem runAll_append (l k : List (State → State)) (s : State) : runAll (l ++ k) s = runAll k (runAll l s) :=
  List.foldl_append

/-- What one item brings about and every item keeps holds after any order. -/
theorem anyOrder_establishes {P : State → Prop} {items : List (State → State)} {g : State → State} (hg : g ∈ items)
    (done : ∀ u, P (g u)) (kept : ∀ k ∈ items, ∀ u, P u → P (k u)) (s : State) : P (anyOrder items s) := by
  obtain ⟨l, n, perm, -, e⟩ := anyOrder_cases items s
  obtain ⟨l₁, l₂, rfl⟩ := List.append_of_mem (perm.mem_iff.mpr hg)
  rw [e, runAll_append]
  show P (runAll l₂ (g _))
  exact runAll_induction (items := l₂) (done _) fun k hk =>
    kept k (perm.mem_iff.mp (List.mem_append_right _ (List.mem_cons_of_mem _ hk)))

/-- The circuits start and stop in a drive frame with the requests its part has taken. -/
theorem request_coolantFrame (cmd : Option CoolantCmd) (s : State) (d : Circuit) :
    ((coolantFrame cmd s).circuit d).request = ((takeCoolant cmd s).circuit d).request := by
  have staged (u : State) : Eases u (stageChannel .pw1 (stageChannel .pw0 u)) :=
    .of_circuits ((circuits_setPw _ .pw1 _).trans (circuits_setPw u .pw0 _))
  have started (i : CoolantIn) (u : State) :
      ((startTest i .flood (startTest i .air (startTest i .through u))).circuit d).request = (u.circuit d).request := by
    rw [request_startTest, request_startTest, request_startTest]
  have stopped (i : CoolantIn) (u : State) : Eases u (stopTest i .air (stopTest i .through (stopTest i .flood u))) :=
    ((Eases.stopTest i .flood u).trans (.stopTest i .through _)).trans (.stopTest i .air _)
  unfold coolantFrame
  simp only []
  rw [(staged _).request d, started, (stopped _ _).request d]

/-- A self-paced frame clears every coolant request (R77). -/
theorem selfPaced_requests (q : Byte) (s : State) (c : Circuit) :
    ((anyOrder (frameParts .none q) s).circuit c).request = false := by
  have cleared (u : State) : ∀ d, ((coolantFrame none u).circuit d).request = false := by
    intro d
    rw [request_coolantFrame]
    cases d <;> rfl
  refine anyOrder_establishes (P := fun u => ∀ d, (u.circuit d).request = false)
    (g := fun u => ileEval (coolantFrame none u)) (List.mem_of_getElem? (i := 6) rfl)
    (fun u d => by rw [State.circuit, ileEval_clu]; exact cleared u d) ?_ s c
  intro g hg u hu d
  simp only [frameParts, List.mem_cons, List.not_mem_nil, or_false] at hg
  rcases hg with rfl | rfl | rfl | rfl | rfl | rfl | rfl | rfl
  iterate 5
    rw [State.circuit, ileEval_clu, clu_kept (onlyWrites_axisFrame _ _ q u)]
    exact hu d
  · have spindle : Eases u (spindleFrame none u) := by
      have read (v : State) : Eases v (awaitRead v) := .ite ((Eases.refl v).modSgu _) (.refl v)
      have formed := (Eases.of_clu (clu_kept (onlyWrites_ileMay u))).trans (read _)
      unfold spindleFrame
      exact (formed.modSgu _).trans (.answerPurge _)
    rw [State.circuit, ileEval_clu]; exact (spindle.request d).trans (hu d)
  · rw [State.circuit, ileEval_clu]; exact cleared u d
  · exact hu d

end Sys2Proof.Machine.Gearbox
end

section
/-! SUPPORT. The loss of the link: the close of the window before it, the entry to LINK_LOST and the first self-paced
frame. -/

namespace Sys2Proof.Machine.Gearbox

set_option Elab.async false

/-! ## The close of the window outside LINK_LOST -/

/-- Where a RESTART stands once the open window is closed: due, if the echo of its cycle has left (R140, R172). -/
def restartAtClose (s : State) : Restart :=
  match s.fsw.window with
  | some w => if w.echo.isSome then s.fsw.restart.afterEcho w.seq else s.fsw.restart
  | none => s.fsw.restart

/-- Outside LINK_LOST the close leaves the bridge state, and of the gear record all but the fault and the stale marks. -/
theorem closeWindow_linked {s : State} (h : s.fsw.state ≠ .linkLost) :
    (closeWindow s).now = s.now ∧
      (∃ f st cst, (closeWindow s).sgu = { s.sgu with fault := f, stale := st, closedStale := cst }) ∧
      ∃ timer r p, p.count = s.fsw.cPort.count + echoesDue s ∧ (closeWindow s).fsw = { s.fsw with
        window := none, windowTimer := timer, stations := r, restart := restartAtClose s, cPort := p } := by
  cases hw : s.fsw.window with
  | none =>
    have due : echoesDue s = 0 := by simp only [echoesDue, hw]
    have restart : restartAtClose s = s.fsw.restart := by simp only [restartAtClose, hw]
    rw [closeWindow_none hw, due, restart]
    exact ⟨rfl, ⟨_, _, _, rfl⟩, s.fsw.windowTimer, s.fsw.stations, s.fsw.cPort, rfl, by rw [← hw]⟩
  | some w =>
    obtain ⟨now, ⟨f, sgu⟩, r, fsw⟩ := windowMissed_leaves w s
    cases he : w.echo with
    | some e =>
      have due : echoesDue s = 1 := by simp only [echoesDue, hw, he, Option.isSome_some, if_true]
      have restart : restartAtClose s = s.fsw.restart.afterEcho w.seq := by
        simp only [restartAtClose, hw, he, Option.isSome_some, if_true]
      rw [closeWindow_echo hw he, due, restart]
      refine ⟨now, ⟨_, _, _, sgu⟩, none, r, s.fsw.cPort.sent (echoBytes w.seq e (windowMissed w s)), rfl, ?_⟩
      simp only [sendEcho, fsw]
    | none =>
      have due : echoesDue s = 0 := by simp [echoesDue, hw, he]
      have restart : restartAtClose s = s.fsw.restart := by simp [restartAtClose, hw, he]
      have linked : (windowMissed w s).fsw.state ≠ .linkLost := by rw [fsw]; exact h
      rw [closeWindow_noEcho hw he, if_neg linked, due, restart]
      exact ⟨now, ⟨_, _, _, sgu⟩, none, r, s.fsw.cPort, rfl, fsw⟩

/-! ## The entry to LINK_LOST (R154, R103, R71) -/

theorem onlyWrites_spindleLinkLost (s : State) : onlyWrites { sgu := true, evu := true } s (spindleLinkLost s) :=
  onlyWrites_ite ((onlyWrites_modSgu s _).mono.trans (onlyWrites_cancelShift _)) (onlyWrites_modSgu s _).mono

theorem partKeeps_cancelShift (s : State) : PartKeeps s (cancelShift s) := by
  unfold cancelShift
  refine PartKeeps.raise ?_ _ _ _
  split <;> exact (PartKeeps.refl s).same

theorem partKeeps_spindleLinkLost (s : State) : PartKeeps s (spindleLinkLost s) :=
  .ite (((PartKeeps.refl s).modSgu _).trans (partKeeps_cancelShift _)) ((PartKeeps.refl s).modSgu _)

/-- The gear record at the loss of the link: no pending target, and a waiting shift is cancelled (R71). -/
theorem spindleLinkLost_sgu (s : State) :
    (spindleLinkLost s).sgu.pendingTarget = none ∧
      (s.sgu.shift = .awaitPermit → (spindleLinkLost s).sgu.target = none ∧ (spindleLinkLost s).sgu.purgeWait = false ∧
        (spindleLinkLost s).sgu.current = s.sgu.current ∧
        (spindleLinkLost s).sgu.shift = if s.sgu.current.isSome then .settled else .unknown) := by
  by_cases cancels : s.sgu.shift = .awaitPermit ∨ s.sgu.shift = .settled ∧ s.sgu.purgeWait = true
  · have e : spindleLinkLost s = cancelShift (s.modSgu fun g => { g with pendingTarget := none, stopping := false }) :=
      if_pos cancels
    obtain ⟨sensor, sgu⟩ := cancelShift_sgu (s.modSgu fun g => { g with pendingTarget := none, stopping := false })
    rw [e, sgu]
    exact ⟨rfl, fun _ => ⟨rfl, rfl, rfl, rfl⟩⟩
  · have e : spindleLinkLost s = s.modSgu fun g => { g with pendingTarget := none, stopping := false } := if_neg cancels
    rw [e]
    exact ⟨rfl, fun waits => absurd (.inl waits) cancels⟩

/-- The state as R154 and R103 leave it, before the SGU cancels its shift. -/
def linkLostMarked (left : Nat) (s : State) : State :=
  let s := (removeStandby s).modFsw fun f => { f with state := .linkLost, linkTimer := none }
  let s := s.modAxes fun r => { r with holds := { r.holds with linkLost := true } }
  linkLossOutputs ((raise .linkLost .link left s).modCounters fun c => { c with losses := c.losses + 1 })

theorem linkLostEntry_eq (left : Nat) (s : State) :
    linkLostEntry left s = ileEval (spindleLinkLost (linkLostMarked left s)) := rfl

theorem linkLostMarked_holds (left : Nat) (s : State) (a : Axis) :
    ((linkLostMarked left s).axis a).holds.linkLost = true ∧ ((linkLostMarked left s).axis a).holds.standby = false := by
  cases a <;> exact ⟨rfl, rfl⟩

theorem linkLostEntry_now (left : Nat) (s : State) : (linkLostEntry left s).now = s.now := by
  have marked : (linkLostMarked left s).now = s.now := rfl
  exact (partKeeps_spindleLinkLost (linkLostMarked left s)).now.trans marked

theorem linkLostMarked_outputs (left : Nat) (s : State) (n : Fin 32) : (linkLostMarked left s).iou.outputs[n] =
    if (s.cfg.outputs[n]).owner = .general ∧ (s.cfg.outputs[n]).lossOff then ⟨false, none⟩ else s.iou.outputs[n] := by
  simp only [linkLostMarked, linkLossOutputs, Fin.getElem_fin, Vector.getElem_mapFinIdx]
  rfl

theorem onlyWrites_linkLossOutputs (s : State) : onlyWrites { outputs := true } s (linkLossOutputs s) := rfl

theorem onlyWrites_linkLostMarked (left : Nat) (s : State) :
    onlyWrites { fsw := true, axes := true, outputs := true, evu := true } s (linkLostMarked left s) := by
  have placed : onlyWrites { fsw := true, axes := true } s
      (((removeStandby s).modFsw fun f => { f with state := .linkLost, linkTimer := none }).modAxes fun r =>
        { r with holds := { r.holds with linkLost := true } }) := rfl
  exact placed.mono.trans ((onlyWrites_raise _ .linkLost .link left).mono.trans
    ((onlyWrites_modFsw _ _).mono.trans (onlyWrites_linkLossOutputs _).mono))

theorem onlyWrites_linkLostEntry (left : Nat) (s : State) :
    onlyWrites { fsw := true, axes := true, sgu := true, outputs := true, evu := true } s (linkLostEntry left s) :=
  (onlyWrites_linkLostMarked left s).mono.trans
    ((onlyWrites_spindleLinkLost _).mono.trans (onlyWrites_ileEval _).mono)

/-- From the marking of R154 to the formation of the frame, what `PartKeeps` says stands. -/
theorem partKeeps_linkLostEntry (left : Nat) (s : State) : PartKeeps (linkLostMarked left s) (linkLostEntry left s) :=
  (partKeeps_spindleLinkLost _).ileEval

theorem linkLostEntry_fsw (left : Nat) (s : State) : (linkLostEntry left s).fsw = { s.fsw with
    state := .linkLost, linkTimer := none, counters := { s.fsw.counters with losses := s.fsw.counters.losses + 1 } } := by
  rw [linkLostEntry_eq, ileEval_fsw, fsw_kept (onlyWrites_spindleLinkLost _)]
  rfl

theorem linkLostEntry_sgu (left : Nat) (s : State) :
    (linkLostEntry left s).sgu.pendingTarget = none ∧
      (s.sgu.shift = .awaitPermit →
        (linkLostEntry left s).sgu.target = none ∧ (linkLostEntry left s).sgu.purgeWait = false ∧
        (linkLostEntry left s).sgu.current = s.sgu.current ∧
        (linkLostEntry left s).sgu.shift = if s.sgu.current.isSome then .settled else .unknown) :=
  spindleLinkLost_sgu (linkLostMarked left s)

/-! ## The gear record in a self-paced frame -/

/-- A drive frame without a field keeps the pending target; with no purge wait and no wait for a permission it keeps the
shift. -/
structure ShiftRests (g h : Sgu) : Prop where
  pending : h.pendingTarget = g.pendingTarget
  rests : g.shift ≠ .awaitPermit → g.purgeWait = false →
    h.shift = g.shift ∧ h.target = g.target ∧ h.current = g.current ∧ h.purgeWait = false

theorem ShiftRests.refl (g : Sgu) : ShiftRests g g := ⟨rfl, fun _ idle => ⟨rfl, rfl, rfl, idle⟩⟩

theorem ShiftRests.trans {g h k : Sgu} (p : ShiftRests g h) (q : ShiftRests h k) : ShiftRests g k := by
  refine ⟨q.pending.trans p.pending, fun waits idle => ?_⟩
  obtain ⟨shift, target, current, idle⟩ := p.rests waits idle
  obtain ⟨shift', target', current', idle'⟩ := q.rests (shift ▸ waits) idle
  exact ⟨shift'.trans shift, target'.trans target, current'.trans current, idle'⟩

/-- The read of GEAR_SHIFT of a drive frame (R61) acts in AWAIT_PERMIT alone. -/
theorem awaitRead_other {s : State} (h : s.sgu.shift ≠ .awaitPermit) : awaitRead s = s :=
  if_neg fun waits => h waits.1

theorem awaitRead_sgu (s : State) : ∃ sh stop sensor, (awaitRead s).sgu = { s.sgu with
    shift := sh, stopTimer := stop, sensorTimer := sensor } := by
  unfold awaitRead
  split
  · exact ⟨_, _, _, rfl⟩
  · exact ⟨_, _, _, rfl⟩

theorem shiftRests_spindleFrame_none (s : State) : ShiftRests s.sgu (spindleFrame none s).sgu := by
  have read : (ileMay s).sgu = s.sgu := sgu_kept (onlyWrites_ileMay s)
  obtain ⟨sh, stop, sensor, formed⟩ := awaitRead_sgu (ileMay s)
  unfold spindleFrame
  simp only []
  obtain ⟨sh', stop', sensor', answered, cases⟩ := answerPurge_kept ((awaitRead (ileMay s)).modSgu fun g => { g with
    enableFwd := spindleEnable (awaitRead (ileMay s))
    demand := (motorDemand (awaitRead (ileMay s)) (spindleEnable (awaitRead (ileMay s)))).1
    speedLimited := (motorDemand (awaitRead (ileMay s)) (spindleEnable (awaitRead (ileMay s)))).2 })
  refine ⟨by rw [answered, State.modSgu_sgu, formed, read], fun waits idle => ?_⟩
  have same : (awaitRead (ileMay s)).sgu = s.sgu := by rw [awaitRead_other (read ▸ waits), read]
  rw [answerPurge_idle (by rw [State.modSgu_sgu, same, idle]), State.modSgu_sgu, same]
  exact ⟨rfl, rfl, rfl, idle⟩

theorem shiftRests_selfPaced (q : Byte) (s : State) : ShiftRests s.sgu (anyOrder (frameParts .none q) s).sgu := by
  refine anyOrder_induction (P := fun u => ShiftRests s.sgu u.sgu) (.refl _) (fun _ _ h => h) ?_
  intro g hg u hu
  refine hu.trans ?_
  simp only [frameParts, List.mem_cons, List.not_mem_nil, or_false] at hg
  rcases hg with rfl | rfl | rfl | rfl | rfl | rfl | rfl | rfl
  iterate 5
    rw [ileEval_sgu, sgu_kept (onlyWrites_axisFrame _ _ q u)]
    exact .refl _
  · rw [ileEval_sgu]; exact shiftRests_spindleFrame_none u
  · rw [ileEval_sgu, sgu_kept (onlyWrites_coolantFrame _ u)]
    exact .refl _
  · exact .refl _

/-! ## A self-paced frame -/

theorem partKeeps_selfPacedFrame (s : State) : PartKeeps s (selfPacedFrame s) := by
  unfold selfPacedFrame
  exact (PartKeeps.anyOrder (partKeeps_selfPacedParts _) s).trans (partKeeps_frameLeaves _ _ _)

/-- A self-paced frame outside STANDBY leaves, and the next follows after a period (R148). -/
theorem selfPacedFrame_fsw {s : State} (h : s.fsw.state ≠ .standby) : ∃ bytes, (selfPacedFrame s).fsw = { s.fsw with
    ownSeq := s.fsw.ownSeq + 1, window := some ⟨s.fsw.ownSeq + 1, .all false, none⟩
    windowTimer := some (s.now + s.cfg.link.period), dPort := s.fsw.dPort.sent bytes
    periodTimer := some (s.now + s.cfg.link.period) } := by
  have writes := onlyWrites_anyOrder (onlyWrites_selfPacedParts (s.fsw.ownSeq + 1)) s
  have fsw := fsw_kept writes
  have cfg := cfg_kept writes
  have now := (PartKeeps.anyOrder (partKeeps_selfPacedParts (s.fsw.ownSeq + 1)) s).now
  have paced : periodAfter (anyOrder (frameParts .none (s.fsw.ownSeq + 1)) s) = some (s.now + s.cfg.link.period) := by
    unfold periodAfter
    rw [fsw, if_neg fun stands => h stands.1, State.startUs, now, cfg]
  refine ⟨driveBytes (s.fsw.ownSeq + 1) (anyOrder (frameParts .none (s.fsw.ownSeq + 1)) s), ?_⟩
  unfold selfPacedFrame
  simp only []
  rw [frameLeaves_fsw, fsw, paced, State.startUs, now, cfg]
  rfl

theorem selfPacedFrame_sgu (s : State) : ShiftRests s.sgu (selfPacedFrame s).sgu := by
  unfold selfPacedFrame
  simp only []
  rw [sgu_kept (onlyWrites_frameLeaves _ _ _)]
  exact shiftRests_selfPaced _ s

theorem selfPacedFrame_requests (s : State) (c : Circuit) : ((selfPacedFrame s).circuit c).request = false := by
  unfold selfPacedFrame
  simp only []
  rw [State.circuit, clu_kept (onlyWrites_frameLeaves _ _ _)]
  exact selfPaced_requests _ s c

/-- A self-paced frame writes no output. -/
theorem selfPacedFrame_writesNoOutput (s : State) :
    onlyWrites { fsw := true, axes := true, pubs := true, sgu := true, clu := true, svr := true, evu := true } s
      (selfPacedFrame s) := by
  unfold selfPacedFrame
  simp only []
  exact (onlyWrites_anyOrder (onlyWrites_selfPacedParts _) s).mono.trans (onlyWrites_frameLeaves _ _ _).mono

/-! ## The expiry of the link timer -/

theorem onlyWrites_enterLinkLost (s : State) :
    onlyWrites { fsw := true, axes := true, pubs := true, sgu := true, clu := true, outputs := true, svr := true,
                 evu := true } s (enterLinkLost s) := by
  have closed := (onlyWrites_closeWindow s).mono
    (w' := { fsw := true, axes := true, pubs := true, sgu := true, clu := true, outputs := true, svr := true, evu := true })
  rw [enterLinkLost_eq]
  split
  · exact closed.trans (onlyWrites_modFsw _ _).mono
  · exact closed.trans ((onlyWrites_linkLostEntry _ _).mono.trans (onlyWrites_selfPacedFrame _).mono)

theorem restartAtClose_none {s : State} (h : s.fsw.restart = .none) : restartAtClose s = .none := by
  unfold restartAtClose
  rw [h]
  split
  · split <;> rfl
  · rfl

/-- The RESTART of a reached state is due once its window is closed (R140, log 47). -/
theorem restartAtClose_due {s : State} (wf : restartWf s = true) (h : s.fsw.restart ≠ .none) :
    restartAtClose s = .due ∧ s.fsw.state = .standby := by
  unfold restartWf at wf
  unfold restartAtClose
  cases hr : s.fsw.restart with
  | none => exact absurd hr h
  | requested q =>
    cases hw : s.fsw.window with
    | none => simp [hr, hw] at wf
    | some w =>
      simp only [hr, hw, Bool.and_eq_true, decide_eq_true_eq] at wf
      obtain ⟨⟨⟨⟨standby, -⟩, -⟩, seq⟩, echo⟩ := wf
      exact ⟨by simp [echo, seq, Restart.afterEcho], standby⟩
  | due =>
    cases hw : s.fsw.window with
    | some w => simp [hr, hw] at wf
    | none =>
      simp only [hr, hw, Bool.and_eq_true, decide_eq_true_eq] at wf
      exact ⟨rfl, wf.1.1⟩

/-- LINK_LOST on every axis and its event, from the marking to the end of the event. -/
theorem linkLost_lasts {left : Nat} {s t : State} (h : PartKeeps (linkLostMarked left s) t) :
    (∀ a, ((finish t).axis a).holds.linkLost = true ∧ ((finish t).axis a).holds.standby = false) ∧
      reported .linkLost .link (finish t).evu := by
  refine ⟨fun a => ?_, ?_⟩
  · obtain ⟨linkLost, standby⟩ := linkLostMarked_holds left s a
    rw [finish_axis, ileEval_axis]
    exact ⟨(h.linkLost a).trans linkLost, h.standby a standby⟩
  · rw [finish_evu]
    exact h.reported _ _ (reported_raised .linkLost .link left s.fsw.lastSeq s.evu)

/-- A GENERAL output takes its link-loss action and keeps it through the frame (R103). -/
theorem linkLossAction_lasts (left : Nat) (s : State) {n : Fin 32} (h : (s.cfg.outputs[n]).owner = .general) :
    (finish (selfPacedFrame (linkLostEntry left s))).iou.outputs[n] =
      if (s.cfg.outputs[n]).lossOff then ⟨false, none⟩ else s.iou.outputs[n] := by
  have entered : onlyWrites { sgu := true, evu := true } (linkLostMarked left s) (linkLostEntry left s) :=
    (onlyWrites_spindleLinkLost _).trans (onlyWrites_ileEval _).mono
  have later := (entered.mono.trans (selfPacedFrame_writesNoOutput (linkLostEntry left s))).trans (onlyWrites_finish _ _)
  have owner : ((linkLostMarked left s).cfg.outputs[n]).owner = .general := h
  rw [generalOutput_kept later (hg := owner), linkLostMarked_outputs]
  simp only [h, true_and]

/-- The loss of the link from the close of the window on, to the end of the event. -/
theorem linkLost_leaves (left : Nat) (s : State) :
    let t := finish (selfPacedFrame (linkLostEntry left s))
    t.now = s.now ∧
      (∃ bytes, t.fsw = { s.fsw with
        state := .linkLost, linkTimer := none
        counters := { s.fsw.counters with losses := s.fsw.counters.losses + 1 }
        ownSeq := s.fsw.ownSeq + 1, window := some ⟨s.fsw.ownSeq + 1, .all false, none⟩
        windowTimer := some (s.now + s.cfg.link.period), dPort := s.fsw.dPort.sent bytes
        periodTimer := some (s.now + s.cfg.link.period) }) ∧
      (∀ a, (t.axis a).holds.linkLost = true ∧ (t.axis a).holds.standby = false) ∧
      reported .linkLost .link t.evu ∧
      t.sgu.pendingTarget = none ∧
      (s.sgu.shift = .awaitPermit → t.sgu.target = none ∧ t.sgu.current = s.sgu.current ∧
        t.sgu.shift = if s.sgu.current.isSome then .settled else .unknown) ∧
      (∀ c, (t.circuit c).request = false) := by
  intro t
  have lasts := (partKeeps_linkLostEntry left s).trans (partKeeps_selfPacedFrame _)
  have now := (partKeeps_selfPacedFrame (linkLostEntry left s)).now
  rw [linkLostEntry_now] at now
  have cfg := cfg_kept (onlyWrites_linkLostEntry left s)
  have lost : (linkLostEntry left s).fsw.state ≠ .standby := by rw [linkLostEntry_fsw]; exact BridgeState.noConfusion
  obtain ⟨bytes, fsw⟩ := selfPacedFrame_fsw lost
  rw [linkLostEntry_fsw, linkLostEntry_now, cfg] at fsw
  obtain ⟨pending, cancelled⟩ := linkLostEntry_sgu left s
  have sgu := selfPacedFrame_sgu (linkLostEntry left s)
  obtain ⟨holds, report⟩ := linkLost_lasts lasts
  refine ⟨(finish_now _).trans now, ⟨bytes, (finish_fsw _).trans fsw⟩, holds, report, ?_, fun waits => ?_, fun c => ?_⟩
  · rw [finish_sgu, sgu.pending, pending]
  · obtain ⟨target, idle, current, shift⟩ := cancelled waits
    have settles : (linkLostEntry left s).sgu.shift ≠ .awaitPermit := by
      rw [shift]; split <;> exact Shift.noConfusion
    obtain ⟨shift', target', current', -⟩ := sgu.rests settles idle
    rw [finish_sgu, shift', target', current', target, current, shift]
    exact ⟨rfl, rfl, rfl⟩
  · rw [State.circuit, finish_clu]
    exact selfPacedFrame_requests _ c

/-- Settles O38. Without a RESTART the bridge enters LINK_LOST and its first self-paced frame leaves; a RESTART that the
close of its window makes due, or that is due already, comes first. -/
theorem linkTimerEntersLinkLost : Obligations.LinkTimerEntersLinkLost := by
  unfold Obligations.LinkTimerEntersLinkLost
  intro s e timer state
  have linked : (atExpiry e s).fsw.state ≠ .linkLost := by
    show s.fsw.state ≠ _
    rcases state with h | h <;> (rw [h]; exact BridgeState.noConfusion)
  have entered : exec .linkTimerExpiry s = .next (finish (enterLinkLost (atExpiry e s))) := by
    have act : linkExpired (atExpiry e s) = enterLinkLost (atExpiry e s) := by
      have h : (atExpiry e s).fsw.state = .standby ∨ (atExpiry e s).fsw.state = .running := state
      unfold linkExpired
      rcases h with h | h <;> rw [h]
    rw [← act]
    exact answerExpiry_some timer linkExpired s
  have whole := (onlyWrites_now _ s (max s.now e)).trans
    ((onlyWrites_enterLinkLost (atExpiry e s)).trans (onlyWrites_finish _ _))
  have closes := onlyWrites_closeWindow (atExpiry e s)
  obtain ⟨now, ⟨f, st, cst, sgu⟩, wt, r, p, count, fsw⟩ := closeWindow_linked linked
  rw [enterLinkLost_eq] at entered whole
  refine ⟨fun none => ?_, fun wf asked => ?_⟩
  · have rests : (closeWindow (atExpiry e s)).fsw.restart ≠ .due := by
      rw [fsw]
      show restartAtClose (atExpiry e s) ≠ .due
      rw [restartAtClose_none (s := atExpiry e s) none]
      exact Restart.noConfusion
    rw [if_neg rests] at entered whole
    refine ⟨_, entered, ?_⟩
    generalize (if (atExpiry e s).fsw.state = .running then 1 else 0) = left at *
    have cfg : (closeWindow (atExpiry e s)).cfg = s.cfg := cfg_kept closes
    have action (n : Fin 32) (h : (s.cfg.outputs[n]).owner = .general) := linkLossAction_lasts left
      (closeWindow (atExpiry e s)) (n := n) (by rw [cfg]; exact h)
    have before (n : Fin 32) (h : (s.cfg.outputs[n]).owner = .general) :
        (closeWindow (atExpiry e s)).iou.outputs[n] = s.iou.outputs[n] := generalOutput_kept closes (hg := h)
    obtain ⟨ends, ⟨bytes, sent⟩, holds, report, pending, cancelled, requests⟩ :=
      linkLost_leaves left (closeWindow (atExpiry e s))
    rw [fsw, now, cfg] at sent
    rw [now] at ends
    rw [sgu] at cancelled
    generalize finish (selfPacedFrame (linkLostEntry left (closeWindow (atExpiry e s)))) = t at *
    unfold frameSent
    rw [sent, ends]
    refine ⟨rfl, rfl, rfl, rfl, rfl, rfl, rfl, rfl, rfl, count, holds, report, fun n h => ?_, pending, cancelled, requests,
      whole⟩
    rw [action n h, before n h, cfg]
  · obtain ⟨becomesDue, standby⟩ := restartAtClose_due (s := atExpiry e s) wf asked
    have first : (closeWindow (atExpiry e s)).fsw.restart = .due := by rw [fsw]; exact becomesDue
    rw [if_pos first] at entered
    refine ⟨_, entered, ?_⟩
    rw [finish_now, finish_fsw, State.modFsw_fsw, State.modFsw_now, fsw]
    exact ⟨now, becomesDue, standby, rfl, rfl, rfl, rfl, count, (onlyWrites_now _ s (max s.now e)).trans
      (closes.trans ((onlyWrites_modFsw _ _).mono.trans (onlyWrites_finish _ _)))⟩

end Sys2Proof.Machine.Gearbox
end

section
/-! SUPPORT. What the service request of a frame leaves of the station 6 part that has been formed, or is to be. -/

namespace Sys2Proof.Machine.Gearbox

set_option Elab.async false

/-! ## The relation and its calculus -/

/-- From `s` to `t` stand the bridge state, SPINDLE_STOP, and of the gear record what the enable of R55 and the drive frame
read beside the shift; no spindle fault has come, and a VALID gear table is still VALID. -/
structure SpindleStands (s t : State) : Prop where
  state : t.fsw.state = s.fsw.state
  spindleStop : t.pdu.spindleStop = s.pdu.spindleStop
  valid : s.isValid .gear = true → t.isValid .gear = true
  enableFwd : t.sgu.enableFwd = s.sgu.enableFwd
  demand : t.sgu.demand = s.sgu.demand
  speedLimited : t.sgu.speedLimited = s.sgu.speedLimited
  returned : t.sgu.returned = s.sgu.returned
  stopping : t.sgu.stopping = s.sgu.stopping
  fault : s.sgu.fault = none → t.sgu.fault = none

theorem isValid_iff (s : State) (id : TableId) : s.isValid id = true ↔ (s.tbm.cat.get id).status = .valid :=
  decide_eq_true_iff

namespace SpindleStands

theorem refl (s : State) : SpindleStands s s := ⟨rfl, rfl, id, rfl, rfl, rfl, rfl, rfl, id⟩

theorem trans {s t u : State} (h : SpindleStands s t) (k : SpindleStands t u) : SpindleStands s u :=
  ⟨k.state.trans h.state, k.spindleStop.trans h.spindleStop, fun v => k.valid (h.valid v), k.enableFwd.trans h.enableFwd,
    k.demand.trans h.demand, k.speedLimited.trans h.speedLimited, k.returned.trans h.returned,
    k.stopping.trans h.stopping, fun f => k.fault (h.fault f)⟩

theorem ite {c : Prop} [Decidable c] {s t u : State} (ht : SpindleStands s t) (hu : SpindleStands s u) :
    SpindleStands s (if c then t else u) := by
  by_cases h : c
  · rwa [if_pos h]
  · rwa [if_neg h]

/-- The parts that the relation reads are as they were. -/
theorem same {s t u : State} (h : SpindleStands s t) (state : u.fsw.state = t.fsw.state := by rfl)
    (sgu : u.sgu = t.sgu := by rfl) (stop : u.pdu.spindleStop = t.pdu.spindleStop := by rfl)
    (tbm : u.tbm = t.tbm := by rfl) : SpindleStands s u :=
  h.trans ⟨state, stop, (congrArg (fun m : Tbm => decide ((m.cat.get .gear).status = .valid)) tbm).trans, by rw [sgu],
    by rw [sgu], by rw [sgu], by rw [sgu], by rw [sgu], fun f => by rw [sgu, f]⟩

theorem raise {s t : State} (h : SpindleStands s t) (c : Code) (src : Source) (d : Nat) :
    SpindleStands s (raise c src d t) := h.same

theorem ileEval {s t : State} (h : SpindleStands s t) : SpindleStands s (ileEval t) := h.same

theorem modAxes {s t : State} (h : SpindleStands s t) (g : AxisRec → AxisRec) : SpindleStands s (t.modAxes g) := h.same

theorem modPdu {s t : State} (h : SpindleStands s t) (g : Pdu → Pdu)
    (stop : ∀ p, (g p).spindleStop = p.spindleStop := by intro p; rfl) : SpindleStands s (t.modPdu g) :=
  h.same (stop := stop _)

/-- A gear record with the parts that the relation reads as before. -/
theorem modSgu {s t : State} (h : SpindleStands s t) (g : Sgu → Sgu)
    (enableFwd : ∀ u, (g u).enableFwd = u.enableFwd := by intro u; rfl)
    (demand : ∀ u, (g u).demand = u.demand := by intro u; rfl)
    (speedLimited : ∀ u, (g u).speedLimited = u.speedLimited := by intro u; rfl)
    (returned : ∀ u, (g u).returned = u.returned := by intro u; rfl)
    (stopping : ∀ u, (g u).stopping = u.stopping := by intro u; rfl)
    (fault : ∀ u : Sgu, u.fault = none → (g u).fault = none := by intro u h; exact h) : SpindleStands s (t.modSgu g) :=
  h.trans ⟨rfl, rfl, id, enableFwd _, demand _, speedLimited _, returned _, stopping _, fault _⟩

/-- An operation that writes none of the four. -/
theorem of_onlyWrites {w : Writes} {s t : State} (h : onlyWrites w s t) (hf : w.fsw = false := by rfl)
    (hs : w.sgu = false := by rfl) (hp : w.pdu = false := by rfl) (ht : w.tbm = false := by rfl) : SpindleStands s t :=
  (SpindleStands.refl s).same (by rw [fsw_kept h hf]) (sgu_kept h hs) (spindleStop_kept h hp) (tbm_kept h ht)

theorem anyOrder {items : List (State → State)} (h : ∀ g ∈ items, ∀ u, SpindleStands u (g u)) (s : State) :
    SpindleStands s (anyOrder items s) :=
  anyOrder_induction (P := SpindleStands s) (.refl s) (fun _ _ hu => hu.same) fun g hg u hu => hu.trans (h g hg u)

theorem foldl {α : Type} {f : State → α → State} (h : ∀ u x, SpindleStands u (f u x)) (l : List α) (s : State) :
    SpindleStands s (l.foldl f s) := by
  induction l generalizing s with
  | nil => exact .refl s
  | cons x l ih => exact (h s x).trans (ih _)

end SpindleStands

/-! ## The gear unit between drive frames -/

theorem spindleStands_watchSettled (s : State) : SpindleStands s (watchSettled s) := by
  unfold watchSettled
  exact (SpindleStands.refl s).modSgu _

theorem spindleStands_watchUnknown (s : State) : SpindleStands s (watchUnknown s) := by
  unfold watchUnknown
  exact (SpindleStands.refl s).modSgu _

theorem spindleStands_enterSettled (r : Option Gear) (s : State) : SpindleStands s (enterSettled r s) :=
  ((SpindleStands.refl s).modSgu fun g => { g with current := r, shift := .settled }).trans (spindleStands_watchSettled _)

theorem spindleStands_enterUnknown (s : State) : SpindleStands s (enterUnknown s) :=
  ((SpindleStands.refl s).modSgu fun g => { g with current := none, shift := .unknown }).trans
    (spindleStands_watchUnknown _)

theorem spindleStands_attemptFails (why : ShiftFailure) (s : State) : SpindleStands s (attemptFails why s) := by
  have ended := (SpindleStands.refl s).modSgu fun g => { g with
    meshTimer := none, creepTimer := none, confirmTimer := none, attemptTimer := none, lastFailure := some why }
  exact .ite (ended.modSgu _) ((ended.modSgu _).raise _ _ _)

theorem spindleStands_sensorChange (g : Gear) (v : Bool) (s : State) : SpindleStands s (sensorChange g v s) := by
  have stopped := (SpindleStands.refl s).modSgu fun u => { u with confirmTimer := none }
  unfold sensorChange
  split
  case h_1 => exact .ite (.ite (.refl s) (spindleStands_watchSettled s)) ((SpindleStands.refl s).modSgu _)
  case h_2 => exact spindleStands_watchUnknown s
  case h_3 | h_4 => exact .ite ((SpindleStands.refl s).modSgu _) (.refl s)
  case h_5 =>
    exact .ite (.ite (stopped.trans (spindleStands_attemptFails _ _)) (.ite (stopped.modSgu _) (stopped.modSgu _))) (.refl s)
  all_goals exact .refl s

theorem spindleStands_conditionedChange (n : Fin 48) (s : State) : SpindleStands s (conditionedChange n s) := by
  refine .anyOrder (fun g hg u => ?_) s
  simp only [List.mem_cons, List.not_mem_nil, or_false] at hg
  rcases hg with rfl | rfl | rfl | rfl | rfl | rfl | rfl | rfl
  iterate 5 exact .of_onlyWrites (onlyWrites_axisInputChange _ n u)
  · unfold spindleInputChange
    repeat' split
    · exact .refl u
    · exact .refl u
    · exact spindleStands_sensorChange _ _ u
  · exact .of_onlyWrites (onlyWrites_coolantInputChange n u)
  · exact .of_onlyWrites (onlyWrites_inputEvent n u)

theorem spindleStands_gearTableActivated (s : State) : SpindleStands s (gearTableActivated s) := by
  have cleared := (SpindleStands.refl s).modSgu fun g =>
    { g with target := none, pendingTarget := none, sensorTimer := none, attempts := 0 }
  unfold gearTableActivated
  simp only []
  split
  · exact .ite (cleared.trans (spindleStands_enterSettled _ _)) ((cleared.trans (spindleStands_enterSettled _ _)).raise _ _ _)
  · exact cleared.trans (spindleStands_enterUnknown _)

theorem spindleStands_clearSpindle (s : State) : SpindleStands s (clearSpindle s) := by
  have cleared := (SpindleStands.refl s).modSgu (fun g => { g with fault := none, driveFaultMem := false })
    (fault := fun _ _ => rfl)
  exact .ite ((cleared.modSgu _).trans (spindleStands_enterUnknown _)) cleared

/-! ## A table that comes into use -/

theorem spindleStands_axisTableActivated (a : Axis) (old : AxisParams) (s : State) :
    SpindleStands s (axisTableActivated a old s) := by
  have fault (r : AxisReason) (u : State) : SpindleStands u (raiseAxisFault a r 0 u) :=
    .of_onlyWrites (onlyWrites_raiseAxisFault a r 0 u)
  have limit (b : Bool) (r : AxisReason) (u : State) : SpindleStands u (if b then raiseAxisFault a r 0 u else u) :=
    .ite (fault r u) (.refl u)
  unfold axisTableActivated
  simp only []
  refine SpindleStands.trans ?_ ((limit _ .hardLimitPos _).trans (limit _ .hardLimitNeg _))
  exact (SpindleStands.refl s).same

theorem spindleStands_inputsTableActivated (s : State) : SpindleStands s (inputsTableActivated s) := by
  have raw : SpindleStands s (inputsFromRaw s) := (SpindleStands.refl s).same
  exact raw.trans (.foldl (fun u n => spindleStands_conditionedChange n u) _ _)

theorem spindleStands_pendantTableActivated (old : PendantTable) (s : State) :
    SpindleStands s (pendantTableActivated old s) := by
  have stopped := (SpindleStands.refl s).modPdu fun p =>
      { p with restarting := true, rx := [], overrun := false, rts := false, decoder := ⟨.hunt, 0, []⟩ }
  have absent := stopped.modPdu fun p => { p with live := false, pendantTimer := none, enable := false, lastSeq := none }
  have unacked (u : State) : SpindleStands u (unackMailbox 512 u) := .ite (SpindleStands.refl u).same (.refl u)
  have drained := (absent.trans (unacked _)).modPdu fun p => { p with drainTimer := s.startMs old.timeout }
  unfold pendantTableActivated
  exact .ite (drained.modPdu _) drained

theorem spindleStands_tableActivated (id : TableId) (old : Tables) (s : State) :
    SpindleStands s (tableActivated id old s) := by
  unfold tableActivated
  split
  case h_1 => exact spindleStands_axisTableActivated _ _ s
  case h_2 => exact spindleStands_gearTableActivated s
  case h_3 => exact .of_onlyWrites (w := { clu := true }) ((onlyWrites_setPw s .pw0 _).trans (onlyWrites_setPw _ .pw1 _))
  case h_4 => exact spindleStands_inputsTableActivated s
  case h_5 => exact (SpindleStands.refl s).same
  case h_6 => exact spindleStands_pendantTableActivated _ s
  all_goals exact .refl s

/-- An activated table is VALID, so that the gear table stays so (R181). -/
theorem spindleStands_activateTaken (id : TableId) (image : List Byte) (s : State) :
    SpindleStands s (activateTaken id image s) := by
  have marked : SpindleStands s (s.modEntry id fun e => { e with status := .valid, image := image }) := by
    refine ⟨rfl, rfl, fun v => ?_, rfl, rfl, rfl, rfl, rfl, fun h => h⟩
    rw [isValid_iff] at v ⊢
    show ((s.tbm.cat.set id { s.tbm.cat.get id with status := .valid, image := image }).get .gear).status = .valid
    by_cases gear : TableId.gear = id
    · rw [← gear, PerTable.get_set_self]
    · rw [PerTable.get_set_other _ _ _ _ gear]; exact v
  have installed : SpindleStands s { setStaging .reset (s.modEntry id fun e => { e with status := .valid, image := image })
      with cfg := installTable id image s.cfg } :=
    marked.trans ⟨rfl, rfl, fun h => h, rfl, rfl, rfl, rfl, rfl, fun h => h⟩
  exact (installed.trans (spindleStands_tableActivated id s.cfg _)).ileEval

/-! ## The request and the service slot -/

theorem spindleStands_clearScope {params : List Byte} {g : State → State} (h : clearScope params = some g) (s : State) :
    SpindleStands s (g s) := by
  have clear (a : Axis) (u : State) : SpindleStands u (clearAxis a u) := by
    unfold clearAxis
    simp only []
    split
    · exact (SpindleStands.refl u).same
    · exact SpindleStands.trans (SpindleStands.refl u).same (.of_onlyWrites (onlyWrites_resolveClampFault a _))
  have axis (a : Axis) (u : State) : SpindleStands u (clearAxisScope a u) := (clear a u).same
  have spindle (u : State) : SpindleStands u (clearSpindleScope u) := (spindleStands_clearSpindle u).same
  have coolant (u : State) : SpindleStands u (clearCoolant u) := .of_onlyWrites (onlyWrites_clearCoolant u)
  have lost (u : State) : SpindleStands u (clearPendantLost u) := ((SpindleStands.refl u).modAxes _).modPdu _
  rcases clearScope_cases h with rfl | ⟨a, rfl⟩ | rfl | rfl | rfl | rfl
  · have axes := (((axis .x s).trans (axis .y _)).trans (axis .z _)).trans ((axis .w _).trans (axis .b _))
    exact (axes.trans ((spindle _).trans (coolant _))).trans (lost _)
  · exact axis a s
  · exact spindle s
  · exact coolant s
  · exact lost s
  · exact (SpindleStands.refl s).same

theorem spindleStands_request {s t : State} (h : RequestEffect s t) : SpindleStands s t := by
  cases h with
  | nothing => exact .refl s
  | tables m status =>
    refine ⟨rfl, rfl, fun v => ?_, rfl, rfl, rfl, rfl, rfl, fun h => h⟩
    rw [isValid_iff] at v ⊢
    exact (status .gear).trans v
  | mail => exact (SpindleStands.refl s).same
  | restarts => exact (SpindleStands.refl s).same
  | activates id image => exact spindleStands_activateTaken id image s
  | clears params g scope => exact (spindleStands_clearScope scope s).ileEval

theorem spindleStands_takeSlot (q : Byte) (slot : List Byte) (s : State) : SpindleStands s (takeSlot q slot s) :=
  takeSlot_induction (P := SpindleStands s) q slot (.refl s) (fun _ _ h => h.same) (fun _ _ h => h.same)
    (fun _ _ h => h.same) fun _ _ r h => h.trans (spindleStands_request r)

end Sys2Proof.Machine.Gearbox
end

section
/-! SUPPORT. The enable and the demand of station 6 by the state in which its part is formed, and how that state stands to
the one in which the command came. -/

namespace Sys2Proof.Machine.Gearbox

set_option Elab.async false

/-! ## The enable and the demand (R53 to R55, R64) -/

/-- The shift states in which station 6 is enabled whatever its slot says (R55). -/
def moves : Shift → Bool
  | .stopping | .shifting | .creeping | .confirming | .retryPause => true
  | .settled | .awaitPermit | .failed | .unknown => false

/-- What an enabled station 6 says of the state in which its part is formed. -/
theorem spindleEnable_grounds {s : State} (h : spindleEnable s = true) :
    s.isValid .gear = true ∧ s.sgu.returned = true ∧ s.sgu.fault = none ∧
      (s.fsw.state = .running ∨ (s.fsw.state = .linkLost ∧ s.sgu.enableFwd = true) ∨
        (s.fsw.state = .standby ∧ s.sgu.stopping = true)) := by
  simp only [spindleEnable, Bool.and_eq_true, Option.isNone_iff_eq_none] at h
  obtain ⟨⟨⟨⟨bridge, valid⟩, fault⟩, returned⟩, -⟩ := h
  refine ⟨valid, returned, fault, ?_⟩
  cases state : s.fsw.state <;> simp only [state] at bridge
  · cases bridge
  · cases bridge
  · exact .inr (.inr ⟨rfl, bridge⟩)
  · exact .inl rfl
  · exact .inr (.inl ⟨rfl, bridge⟩)

/-- In RUNNING nothing but what R55 lists withdraws the enable. -/
theorem spindleEnable_running {s : State} (state : s.fsw.state = .running) (valid : s.isValid .gear = true)
    (fault : s.sgu.fault = none) (returned : s.sgu.returned = true)
    (wanted : s.sgu.slot.enable = true ∨ moves s.sgu.shift = true) : spindleEnable s = true := by
  simp only [spindleEnable, state, valid, fault, returned, Option.isNone_none, Bool.and_self, Bool.true_and]
  rcases wanted with slot | moving
  · rw [slot]; split <;> rfl
  · cases shift : s.sgu.shift <;> simp [shift, moves] at moving ⊢

theorem spindleEnable_sound {s : State} (h : spindleEnable s = true) : s.sgu.fault = none := by
  obtain ⟨-, -, fault, -⟩ := spindleEnable_grounds h
  exact fault

theorem motorDemand_off {s : State} {e : Bool} (h : e = false ∨ s.pdu.spindleStop = true) :
    motorDemand s e = (0, false) := by
  rcases h with h | h <;> simp [motorDemand, h]

/-- Outside CREEPING the motor stands but in RUNNING, by its slot, in a settled range (R54). -/
theorem motorDemand_rests {s : State} (e : Bool) (shift : s.sgu.shift ≠ .creeping)
    (h : s.fsw.state ≠ .running ∨ s.sgu.slot.enable = false ∨ settledRange s = none) : motorDemand s e = (0, false) := by
  unfold motorDemand
  split
  · rfl
  · rcases h with h | h | h <;> simp [h]

theorem motorDemand_creeping {s : State} {e : Bool} (shift : s.sgu.shift = .creeping)
    (fault : e = true → s.sgu.fault = none) :
    motorDemand s e = (if e = true ∧ s.pdu.spindleStop = false then creepDemand s else 0, false) := by
  cases e with
  | false => simp [motorDemand]
  | true => cases stop : s.pdu.spindleStop <;> simp [motorDemand, stop, fault rfl, shift]

theorem settledRange_shift {s : State} {r : RangeRec} (h : settledRange s = some r) : s.sgu.shift = .settled := by
  unfold settledRange at h
  split at h
  · assumption
  · cases h

theorem motorDemand_settled {s : State} {r : RangeRec} (range : settledRange s = some r) (fault : s.sgu.fault = none)
    (stop : s.pdu.spindleStop = false) (state : s.fsw.state = .running) (slot : s.sgu.slot.enable = true)
    (run : s.perms.spindleRun = true) : motorDemand s true = rangeDemand r s.cfg.gear.motorMax s.sgu.slot := by
  simp [motorDemand, stop, fault, settledRange_shift range, slot, run, state, range]

/-- The settled range is that of the gear record and of the gear table. -/
theorem settledRange_congr {s t : State} (shift : t.sgu.shift = s.sgu.shift) (current : t.sgu.current = s.sgu.current)
    (cfg : t.cfg = s.cfg) : settledRange t = settledRange s := by
  simp only [settledRange, rangeRec, shift, current, cfg]

theorem settledRange_none {s : State} (h : s.sgu.shift ≠ .settled ∨ s.sgu.current = none ∨ s.sgu.current = some .neutral) :
    settledRange s = none := by
  unfold settledRange
  rcases h with h | h | h
  · rw [if_neg h]
  · simp [h]
  · have record : rangeRec s .neutral = none := by unfold rangeRec; split <;> rfl
    simp [h, record]

theorem rangeDemand_zero {r : RangeRec} {max : Nat} {slot : SpindleSlot} (h : slot.speed = 0) :
    rangeDemand r max slot = (0, false) := if_pos h

/-- The scaled speed of the slot, limited to the range's window and then to the motor's maximum (R53). -/
theorem rangeDemand_scaled {r : RangeRec} {max : Nat} {slot : SpindleSlot} (h : slot.speed ≠ 0) :
    rangeDemand r max slot =
      (((if slot.ccw then -1 else 1) * (min (motorMagnitude r (windowSpeed r slot.speed)) max : Nat) : Int),
        decide (windowSpeed r slot.speed ≠ slot.speed) || decide (max < motorMagnitude r (windowSpeed r slot.speed))) := by
  have limited (m : Nat) : decide (min m max ≠ m) = decide (max < m) := decide_eq_decide.mpr (by omega)
  simp only [rangeDemand, if_neg h, limited]
  cases slot.ccw <;> simp

/-- The creep demand reads the target, the creep direction and the gear table (R64). -/
theorem creepDemand_congr {s t : State} (target : t.sgu.target = s.sgu.target) (dir : t.sgu.creepDir = s.sgu.creepDir)
    (cfg : t.cfg = s.cfg) : creepDemand t = creepDemand s := by
  simp only [creepDemand, rangeRec, target, dir, cfg]

/-! ## The relation from the command to the part -/

/-- SPINDLE_RUN is not withdrawn while no row of the interlock table targets it. -/
def RunStands (s t : State) : Prop :=
  (∀ row ∈ s.cfg.interlock, row.target ≠ .spindleRun) → s.perms.spindleRun = true → t.perms.spindleRun = true

theorem evalPerms_spindleRun {s : State} (h : ∀ row ∈ s.cfg.interlock, row.target ≠ .spindleRun) :
    (evalPerms s).spindleRun = true := by
  show (s.cfg.interlock.all fun r => decide (r.target ≠ .spindleRun) || rowHolds s r) = true
  exact List.all_eq_true.mpr fun row mem => by rw [decide_eq_true (h row mem), Bool.true_or]

theorem RunStands.of_perms {s t : State} (h : t.perms = s.perms) : RunStands s t := fun _ run => by rw [h, run]

theorem RunStands.of_eval {s t : State} (h : t.cfg = s.cfg) : RunStands s (ileEval t) :=
  fun rows _ => evalPerms_spindleRun (s := t) (by rw [h]; exact rows)

theorem RunStands.trans {s t u : State} (h : RunStands s t) (cfg : t.cfg = s.cfg) (k : RunStands t u) : RunStands s u :=
  fun rows run => k (by rw [cfg]; exact rows) (h rows run)

/-- From `s` to `v` the tables, SPINDLE_STOP and what the demand of station 6 reads stand, with the state of a shift that
moves; a shift at rest may begin or wait, or is cancelled as the link is `lost` (R59, R61, R71). -/
structure SpindleOpens (lost : Prop) (s v : State) : Prop where
  cfg : v.cfg = s.cfg
  tbm : v.tbm = s.tbm
  spindleStop : v.pdu.spindleStop = s.pdu.spindleStop
  enableFwd : v.sgu.enableFwd = s.sgu.enableFwd
  returned : v.sgu.returned = s.sgu.returned
  current : v.sgu.current = s.sgu.current
  creepDir : v.sgu.creepDir = s.sgu.creepDir
  moving : moves s.sgu.shift = true → v.sgu.shift = s.sgu.shift ∧ v.sgu.target = s.sgu.target
  rests : moves s.sgu.shift = false → v.sgu.shift = s.sgu.shift ∨ v.sgu.shift = .stopping ∨ v.sgu.shift = .awaitPermit ∨
    (lost ∧ v.sgu.shift ≠ .creeping)
  run : RunStands s v

namespace SpindleOpens

variable {lost : Prop} {s t u : State}

theorem refl (s : State) : SpindleOpens lost s s :=
  ⟨rfl, rfl, rfl, rfl, rfl, rfl, rfl, fun _ => ⟨rfl, rfl⟩, fun _ => .inl rfl, fun _ run => run⟩

theorem trans (h : SpindleOpens lost s t) (k : SpindleOpens lost t u) : SpindleOpens lost s u where
  cfg := k.cfg.trans h.cfg
  tbm := k.tbm.trans h.tbm
  spindleStop := k.spindleStop.trans h.spindleStop
  enableFwd := k.enableFwd.trans h.enableFwd
  returned := k.returned.trans h.returned
  current := k.current.trans h.current
  creepDir := k.creepDir.trans h.creepDir
  moving m := by
    obtain ⟨shift, target⟩ := h.moving m
    obtain ⟨shift', target'⟩ := k.moving (shift ▸ m)
    exact ⟨shift'.trans shift, target'.trans target⟩
  rests m := by
    have later (sh : Shift) (e : t.sgu.shift = sh) (moving : moves sh = true) : u.sgu.shift = sh :=
      (k.moving (e ▸ moving)).1.trans e
    rcases h.rests m with e | e | e | ⟨l, e⟩
    · rw [← e]; exact k.rests (e ▸ m)
    · exact .inr (.inl (later _ e rfl))
    · rcases k.rests (e ▸ rfl) with e' | e' | e' | e'
      · exact .inr (.inr (.inl (e'.trans e)))
      · exact .inr (.inl e')
      · exact .inr (.inr (.inl e'))
      · exact .inr (.inr (.inr e'))
    · refine .inr (.inr (.inr ⟨l, ?_⟩))
      cases m' : moves t.sgu.shift with
      | true => rw [(k.moving m').1]; exact e
      | false => rcases k.rests m' with e' | e' | e' | ⟨-, e'⟩ <;> simp_all
  run := h.run.trans h.cfg k.run

theorem mono {lost' : Prop} (h : SpindleOpens lost s t) (imp : lost → lost') : SpindleOpens lost' s t :=
  { h with rests := fun m => (h.rests m).imp_right (.imp_right (.imp_right (.imp_left imp))) }

/-- A part is formed in CREEPING only if the shift was creeping before. -/
theorem creeps (h : SpindleOpens lost s t) (creeping : t.sgu.shift = .creeping) : s.sgu.shift = .creeping := by
  cases m : moves s.sgu.shift with
  | true => exact (h.moving m).1.symm.trans creeping
  | false =>
    rcases h.rests m with e | e | e | ⟨-, e⟩
    · exact e.symm.trans creeping
    · exact absurd (e.symm.trans creeping) Shift.noConfusion
    · exact absurd (e.symm.trans creeping) Shift.noConfusion
    · exact absurd creeping e

/-- A part is formed in SETTLED only if the shift was settled before, or the link is lost. -/
theorem settles (h : SpindleOpens lost s t) (settled : t.sgu.shift = .settled) : s.sgu.shift = .settled ∨ lost := by
  cases m : moves s.sgu.shift with
  | true => exact .inl ((h.moving m).1.symm.trans settled)
  | false =>
    rcases h.rests m with e | e | e | ⟨l, -⟩
    · exact .inl (e.symm.trans settled)
    · exact absurd (e.symm.trans settled) Shift.noConfusion
    · exact absurd (e.symm.trans settled) Shift.noConfusion
    · exact .inr l

/-- An operation that leaves the gear record but for what neither enable nor demand read, and the permissions. -/
theorem of_sgu {w : Writes} (h : onlyWrites w s t) (run : RunStands s t)
    (enableFwd : t.sgu.enableFwd = s.sgu.enableFwd) (returned : t.sgu.returned = s.sgu.returned)
    (current : t.sgu.current = s.sgu.current) (creepDir : t.sgu.creepDir = s.sgu.creepDir)
    (shift : t.sgu.shift = s.sgu.shift) (target : t.sgu.target = s.sgu.target)
    (hc : w.cfg = false := by rfl) (ht : w.tbm = false := by rfl) (hp : w.pdu = false := by rfl) : SpindleOpens lost s t :=
  ⟨cfg_kept h hc, tbm_kept h ht, spindleStop_kept h hp, enableFwd, returned, current, creepDir,
    fun _ => ⟨shift, target⟩, fun _ => .inl shift, run⟩

/-- An operation that writes no gear record, table or pendant. -/
theorem of_onlyWrites {w : Writes} (h : onlyWrites w s t) (run : RunStands s t) (hs : w.sgu = false := by rfl)
    (hc : w.cfg = false := by rfl) (ht : w.tbm = false := by rfl) (hp : w.pdu = false := by rfl) : SpindleOpens lost s t := by
  have sgu := sgu_kept h hs
  exact .of_sgu h run (by rw [sgu]) (by rw [sgu]) (by rw [sgu]) (by rw [sgu]) (by rw [sgu]) (by rw [sgu]) hc ht hp

end SpindleOpens

/-! ## The part of station 6 up to its enable -/

theorem runStands_ileMay (s : State) : RunStands s (ileMay s) := by
  rcases ileMay_cases s with e | e | e <;> rw [e]
  · exact .of_perms rfl
  · exact .of_perms rfl
  · exact .of_eval rfl

theorem runStands_readGearShift (s : State) : RunStands s (readGearShift s) := by
  have perms : (readGearShift s).perms = (ileMay s).perms := by
    unfold readGearShift
    simp only []
    split <;> rfl
  intro rows run
  rw [perms]
  exact runStands_ileMay s rows run

theorem runStands_startShift (r : Gear) (s : State) : RunStands s (startShift r s) := by
  unfold startShift
  simp only []
  split
  · exact .of_perms rfl
  · exact runStands_readGearShift (s.modSgu fun g =>
      { g with target := some r, attempts := 1, meshElapsed := false, attemptSpent := false })

theorem opens_ileMay (s : State) : SpindleOpens False s (ileMay s) := .of_onlyWrites (onlyWrites_ileMay s) (runStands_ileMay s)

theorem opens_awaitRead (s : State) : SpindleOpens False s (awaitRead s) := by
  unfold awaitRead
  split
  · rename_i waits
    have rests : moves s.sgu.shift ≠ true := by rw [waits.1]; exact Bool.false_ne_true
    exact ⟨rfl, rfl, rfl, rfl, rfl, rfl, rfl, fun m => absurd m rests, fun _ => .inr (.inl rfl), .of_perms rfl⟩
  · exact .refl s

/-- A shift that starts does so from rest. -/
theorem opens_startShift (r : Gear) {s : State} (h : moves s.sgu.shift = false) : SpindleOpens False s (startShift r s) := by
  have whole := onlyWrites_startShift r s
  obtain ⟨sh, wait, stop, sensor, sgu, cases⟩ := startShift_sgu r s
  refine ⟨cfg_kept whole, tbm_kept whole, spindleStop_kept whole, by rw [sgu], by rw [sgu], by rw [sgu], by rw [sgu],
    fun m => absurd (h.symm.trans m) Bool.false_ne_true, fun _ => ?_, runStands_startShift r s⟩
  rw [sgu]
  rcases cases with ⟨e, -⟩ | ⟨e | e, -⟩
  · exact .inl e
  · exact .inr (.inl e)
  · exact .inr (.inr (.inl e))

theorem opens_newRequest (r : Gear) (s : State) : SpindleOpens False s (newRequest r s) := by
  have pending (p : Option Gear) : SpindleOpens False s (s.modSgu fun g => { g with pendingTarget := p }) :=
    .of_sgu (onlyWrites_modSgu s _) (.of_perms rfl) rfl rfl rfl rfl rfl rfl
  unfold newRequest
  split
  · exact .refl s
  split
  · exact .of_sgu (onlyWrites_modSgu s _) (.of_perms rfl) rfl rfl rfl rfl rfl rfl
  split
  case h_1 settled =>
    split
    · exact .refl s
    · exact opens_startShift r (by rw [settled]; rfl)
  case h_2 => exact pending _
  all_goals exact .refl s

theorem opens_rangeRequest (v : Nat) (s : State) : SpindleOpens False s (rangeRequest v s) := by
  have noted (n : Nat) : SpindleOpens False s (s.modSgu fun g => { g with lastRequest := n }) :=
    .of_sgu (onlyWrites_modSgu s _) (.of_perms rfl) rfl rfl rfl rfl rfl rfl
  unfold rangeRequest
  simp only []
  generalize (if v ≤ 5 then v else 0) = n
  split
  · exact noted _
  · split
    · exact noted _
    · exact (noted _).trans (opens_newRequest _ _)

/-- The gear record as its frame is formed: enable and demand are those of the state `v` (R52). -/
structure SpindleFormed (v w : State) : Prop where
  state : w.fsw.state = v.fsw.state
  tbm : w.tbm = v.tbm
  enableFwd : w.sgu.enableFwd = spindleEnable v
  demand : w.sgu.demand = (motorDemand v (spindleEnable v)).1
  speedLimited : w.sgu.speedLimited = (motorDemand v (spindleEnable v)).2
  returned : w.sgu.returned = v.sgu.returned
  stopping : w.sgu.stopping = v.sgu.stopping
  fault : w.sgu.fault = v.sgu.fault
  slot : w.sgu.slot = v.sgu.slot
  settled : w.sgu.shift = .settled → v.sgu.shift = .settled

/-- The state of the part as the enable is formed. -/
def beforeEnable (cmd : Option SpindleCmd) (s : State) : State :=
  awaitRead (ileMay (match cmd with
    | none => s
    | some c => rangeRequest c.request (s.modSgu fun g => { g with slot := c.slot })))

theorem spindleFrame_eq (cmd : Option SpindleCmd) (s : State) : spindleFrame cmd s =
    answerPurge ((beforeEnable cmd s).modSgu fun g => { g with
      enableFwd := spindleEnable (beforeEnable cmd s)
      demand := (motorDemand (beforeEnable cmd s) (spindleEnable (beforeEnable cmd s))).1
      speedLimited := (motorDemand (beforeEnable cmd s) (spindleEnable (beforeEnable cmd s))).2 }) := rfl

theorem opens_beforeEnable (cmd : Option SpindleCmd) (s : State) : SpindleOpens False s (beforeEnable cmd s) := by
  have requested : SpindleOpens False s (match cmd with
      | none => s
      | some c => rangeRequest c.request (s.modSgu fun g => { g with slot := c.slot })) := by
    cases cmd with
    | none => exact .refl s
    | some c =>
      have slot : SpindleOpens False s (s.modSgu fun g => { g with slot := c.slot }) :=
        .of_sgu (onlyWrites_modSgu s _) (.of_perms rfl) rfl rfl rfl rfl rfl rfl
      exact slot.trans (opens_rangeRequest _ _)
  exact (requested.trans (opens_ileMay _)).trans (opens_awaitRead _)

theorem onlyWrites_beforeEnable (cmd : Option SpindleCmd) (s : State) :
    onlyWrites { sgu := true, evu := true } s (beforeEnable cmd s) := by
  have read (u : State) : onlyWrites { sgu := true, evu := true } u (awaitRead (ileMay u)) :=
    (onlyWrites_ileMay u).mono.trans (onlyWrites_ite (onlyWrites_modSgu _ _).mono (onlyWrites_refl _ _))
  cases cmd with
  | none => exact read s
  | some c => exact ((onlyWrites_modSgu s _).mono.trans (onlyWrites_rangeRequest _ _)).trans (read _)

theorem spindleFrame_formed (cmd : Option SpindleCmd) (s : State) :
    SpindleFormed (beforeEnable cmd s) (ileEval (spindleFrame cmd s)) := by
  rw [spindleFrame_eq]
  generalize beforeEnable cmd s = v
  have whole := onlyWrites_answerPurge (v.modSgu fun g => { g with
    enableFwd := spindleEnable v
    demand := (motorDemand v (spindleEnable v)).1, speedLimited := (motorDemand v (spindleEnable v)).2 })
  obtain ⟨sh, stop, sensor, sgu, cases⟩ := answerPurge_kept (v.modSgu fun g => { g with
    enableFwd := spindleEnable v
    demand := (motorDemand v (spindleEnable v)).1, speedLimited := (motorDemand v (spindleEnable v)).2 })
  constructor <;> simp only [ileEval_fsw, ileEval_tbm, ileEval_sgu, fsw_kept whole, tbm_kept whole, sgu, State.modSgu_fsw,
    State.modSgu_tbm, State.modSgu_sgu]
  rintro rfl
  rcases cases with e | e | ⟨-, e⟩
  · cases e
  · cases e
  · exact e.symm

end Sys2Proof.Machine.Gearbox
end

section
/-! SUPPORT. How a drive frame comes to be formed, and what stands on both sides of the part of station 6 in it. -/

namespace Sys2Proof.Machine.Gearbox

set_option Elab.async false

/-! ## What the other parts leave -/

/-- From `s` to `t` the gear record, the bridge state, the tables and SPINDLE_STOP stand. -/
structure SpindleSame (s t : State) : Prop where
  sgu : t.sgu = s.sgu
  state : t.fsw.state = s.fsw.state
  spindleStop : t.pdu.spindleStop = s.pdu.spindleStop
  cfg : t.cfg = s.cfg
  tbm : t.tbm = s.tbm
  run : RunStands s t

theorem SpindleSame.refl (s : State) : SpindleSame s s := ⟨rfl, rfl, rfl, rfl, rfl, .of_perms rfl⟩

theorem SpindleSame.trans {s t u : State} (h : SpindleSame s t) (k : SpindleSame t u) : SpindleSame s u :=
  ⟨k.sgu.trans h.sgu, k.state.trans h.state, k.spindleStop.trans h.spindleStop, k.cfg.trans h.cfg, k.tbm.trans h.tbm,
    h.run.trans h.cfg k.run⟩

theorem SpindleSame.of_onlyWrites {w : Writes} {s t : State} (h : onlyWrites w s t) (run : RunStands s t)
    (hf : w.fsw = false := by rfl) (hs : w.sgu = false := by rfl) (hp : w.pdu = false := by rfl)
    (hc : w.cfg = false := by rfl) (ht : w.tbm = false := by rfl) : SpindleSame s t :=
  ⟨sgu_kept h hs, by rw [fsw_kept h hf], spindleStop_kept h hp, cfg_kept h hc, tbm_kept h ht, run⟩

theorem SpindleSame.stands {s t : State} (h : SpindleSame s t) : SpindleStands s t :=
  (SpindleStands.refl s).same h.state h.sgu h.spindleStop h.tbm

theorem SpindleSame.opens {s t : State} (h : SpindleSame s t) : SpindleOpens False s t where
  cfg := h.cfg
  tbm := h.tbm
  spindleStop := h.spindleStop
  enableFwd := by rw [h.sgu]
  returned := by rw [h.sgu]
  current := by rw [h.sgu]
  creepDir := by rw [h.sgu]
  moving _ := by rw [h.sgu]; exact ⟨rfl, rfl⟩
  rests _ := .inl (by rw [h.sgu])
  run := h.run

theorem perms_outputFrame (cmd : Option OutputMasks) (s : State) : (outputFrame cmd s).perms = s.perms := by
  have noted (b : Bool) (c : Code) (d : Nat) (u : State) : (raiseIf b c d u).perms = u.perms := by
    unfold raiseIf; split <;> rfl
  have masked (m : OutputMasks) (n : Fin 32) (u : State) : (maskOutput m n u).perms = u.perms := by
    unfold maskOutput
    simp only []
    split
    · exact noted _ _ _ _
    split
    all_goals
      rw [noted]
      repeat' split
      all_goals rfl
  have all (m : OutputMasks) (l : List (Fin 32)) (u : State) :
      (l.foldl (fun u n => maskOutput m n u) u).perms = u.perms := by
    induction l generalizing u with
    | nil => rfl
    | cons n l ih => exact (ih _).trans (masked m n u)
  cases cmd with
  | none => rfl
  | some m => exact all m _ s

/-- The parts of the axis conditioners in a drive frame. -/
def axisParts (sl : Slots) (q : Byte) : List (State → State) :=
  [fun s => ileEval (axisFrame .x sl.axis.x q s), fun s => ileEval (axisFrame .y sl.axis.y q s),
    fun s => ileEval (axisFrame .z sl.axis.z q s), fun s => ileEval (axisFrame .w sl.axis.w q s),
    fun s => ileEval (axisFrame .b sl.axis.b q s)]

/-- The part of station 6. -/
def spindlePart (sl : Slots) (s : State) : State := ileEval (spindleFrame sl.spindle s)

/-- The parts of the coolant unit and of the outputs. -/
def lastParts (sl : Slots) : List (State → State) :=
  [fun s => ileEval (coolantFrame sl.coolant s), outputFrame sl.outputs]

theorem frameParts_eq (sl : Slots) (q : Byte) :
    frameParts sl q = axisParts sl q ++ spindlePart sl :: lastParts sl := rfl

/-- The parts but that of station 6 leave what it reads and what it has formed. -/
theorem same_otherParts (sl : Slots) (q : Byte) : ∀ g ∈ axisParts sl q ++ lastParts sl, ∀ u, SpindleSame u (g u) := by
  intro g hg u
  have axis (a : Axis) (cmd : Option AxisCmd) : SpindleSame u (ileEval (axisFrame a cmd q u)) :=
    .of_onlyWrites ((onlyWrites_axisFrame a cmd q u).trans (onlyWrites_ileEval _).mono)
      (.of_eval (cfg_kept (onlyWrites_axisFrame a cmd q u)))
  simp only [axisParts, lastParts, List.mem_append, List.mem_cons, List.not_mem_nil, or_false] at hg
  rcases hg with (rfl | rfl | rfl | rfl | rfl) | rfl | rfl
  iterate 5 exact axis _ _
  · exact .of_onlyWrites ((onlyWrites_coolantFrame _ u).trans (onlyWrites_ileEval _).mono)
      (.of_eval (cfg_kept (onlyWrites_coolantFrame _ u)))
  · exact .of_onlyWrites (onlyWrites_outputFrame _ u) (.of_perms (perms_outputFrame _ u))

/-! ## One part among the others -/

/-- What every other item keeps, from the start to one item and from that item to the end. -/
theorem runAll_around {R : State → State → Prop} (refl : ∀ u, R u u) (trans : ∀ u v w, R u v → R v w → R u w)
    {before after l : List (State → State)} {g : State → State} (perm : l.Perm (before ++ g :: after))
    (others : ∀ f ∈ before ++ after, ∀ u, R u (f u)) (s : State) : ∃ x, R s x ∧ R (g x) (runAll l s) := by
  obtain ⟨l₁, l₂, rfl⟩ := List.append_of_mem (perm.mem_iff.mpr (List.mem_append_right _ List.mem_cons_self))
  have rest : (l₁ ++ l₂).Perm (before ++ after) :=
    List.Perm.cons_inv (a := g) (List.perm_middle.symm.trans (perm.trans List.perm_middle))
  have kept (k : List (State → State)) (sub : ∀ f ∈ k, f ∈ l₁ ++ l₂) (u : State) : R u (runAll k u) :=
    runAll_induction (P := R u) (refl u) fun f hf v hv => trans _ _ _ hv (others f (rest.mem_iff.mp (sub f hf)) v)
  refine ⟨runAll l₁ s, kept l₁ (fun f hf => List.mem_append_left _ hf) s, ?_⟩
  rw [runAll_append]
  exact kept l₂ (fun f hf => List.mem_append_right _ hf) _

theorem formInOrder_state (l : List (Bool × (State → State))) (s : State) :
    (formInOrder l s).1 = runAll (l.map Prod.snd) s := by
  have fold (x : Formed) : (l.foldl (fun x p => formItem p x) x).1 = runAll (l.map Prod.snd) x.1 := by
    induction l generalizing x with
    | nil => rfl
    | cons p l ih => exact ih (formItem p x)
  exact fold (s, echoStatus s)

/-- `r` is what the parts of a drive frame make of `u`: of a self-paced frame, or of the frame of the command `c`. -/
def formedFrom (c : Instr) (u r : State) : Prop :=
  (∃ q, r = anyOrder (frameParts .none q) u) ∨
    ∃ f : CommandFrame, (noRequest c = true → f.service = []) ∧
      r = (formFrame (frameParts f.slots f.seq) (takeSlot f.seq f.service) u).1

/-- What the request and the other parts keep stands on both sides of the part of station 6. -/
theorem formedFrom_around {R : State → State → Prop} (refl : ∀ u, R u u) (trans : ∀ u v w, R u v → R v w → R u w)
    (free : ∀ u n, R u { u with free := n }) (same : ∀ u v, SpindleSame u v → R u v) {c : Instr} {u r : State}
    (request : ∀ f : CommandFrame, (noRequest c = true → f.service = []) → ∀ v, R v (takeSlot f.seq f.service v))
    (h : formedFrom c u r) : ∃ sl x, R u x ∧ R (spindlePart sl x) r := by
  rcases h with ⟨q, formed⟩ | ⟨f, empty, formed⟩
  · obtain ⟨l, n, perm, -, e⟩ := anyOrder_cases (frameParts .none q) u
    have items : l.Perm (axisParts .none q ++ spindlePart .none :: lastParts .none) := perm
    obtain ⟨x, first, last⟩ := runAll_around refl trans items
      (fun g hg v => same v (g v) (same_otherParts .none q g hg v)) { u with free := n }
    exact ⟨.none, x, trans _ _ _ (free u n) first, by rw [formed, e]; exact last⟩
  · obtain ⟨l, n, perm, -, e⟩ := formFrame_cases (frameParts f.slots f.seq) (takeSlot f.seq f.service) u
    have items : (l.map Prod.snd).Perm
        ((takeSlot f.seq f.service :: axisParts f.slots f.seq) ++ spindlePart f.slots :: lastParts f.slots) := by
      have mapped := perm.map Prod.snd
      rwa [List.map_cons, List.map_map, show (Prod.snd ∘ fun g : State → State => (false, g)) = id from rfl, List.map_id,
        frameParts_eq] at mapped
    obtain ⟨x, first, last⟩ := runAll_around refl trans items (fun g hg v => by
      rcases List.mem_cons.mp hg with rfl | hg
      · exact request f empty v
      · exact same _ _ (same_otherParts f.slots f.seq g hg v)) { u with free := n }
    exact ⟨f.slots, x, trans _ _ _ (free u n) first, by rw [formed, e, formInOrder_state]; exact last⟩

/-- On both sides of its part, what the enable reads and what the frame carries stands. -/
theorem formedFrom_stands {c : Instr} {u r : State} (h : formedFrom c u r) :
    ∃ sl x, SpindleStands u x ∧ SpindleStands (spindlePart sl x) r :=
  formedFrom_around .refl (fun _ _ _ => .trans) (fun u _ => (SpindleStands.refl u).same) (fun _ _ => SpindleSame.stands)
    (fun f _ v => spindleStands_takeSlot f.seq f.service v) h

/-- Without a request the gear record stands on both sides. -/
theorem formedFrom_same {c : Instr} {u r : State} (none : noRequest c = true) (h : formedFrom c u r) :
    ∃ sl x, SpindleSame u x ∧ SpindleSame (spindlePart sl x) r :=
  formedFrom_around .refl (fun _ _ _ => .trans) (fun _ _ => ⟨rfl, rfl, rfl, rfl, rfl, .of_perms rfl⟩) (fun _ _ => id)
    (fun f empty v => by rw [empty none]; exact .refl v) h

/-! ## Before the parts are formed -/

theorem perms_missStation (st : Station) (s : State) : (missStation st s).perms = s.perms := by
  have report (u : State) : (reportSilent st u).perms = u.perms := by
    unfold reportSilent
    cases st with
    | axis a => simp only [raiseAxisFault]; split <;> rfl
    | spindle =>
      simp only [raiseSpindleFault]
      split <;> rfl
  unfold missStation
  simp only []
  split
  · exact report _
  · rfl

theorem perms_testRest (s : State) : (testRest s).perms = s.perms := by
  unfold testRest
  repeat' split
  all_goals rfl

theorem perms_closeWindow (s : State) : (closeWindow s).perms = s.perms := by
  cases h : s.fsw.window with
  | none => rw [closeWindow_none h]
  | some w =>
    have missed : (windowMissed w s).perms = s.perms :=
      anyOrder_induction (P := fun u => u.perms = s.perms)
        (items := (stations.filter fun st => !w.taken.get st).map missStation)
        (s := s.modFsw fun f => { f with window := none, windowTimer := none }) rfl (fun _ _ h => h) fun g hg u hu => by
          obtain ⟨st, -, rfl⟩ := List.mem_map.mp hg
          exact (perms_missStation st u).trans hu
    cases echo : w.echo with
    | some e => rw [closeWindow_echo h echo]; exact missed
    | none =>
      rw [closeWindow_noEcho h echo]
      split
      · exact (perms_testRest _).trans missed
      · exact missed

theorem opens_closeWindow (s : State) : SpindleOpens False s (closeWindow s) := by
  have run : RunStands s (closeWindow s) := .of_perms (perms_closeWindow s)
  cases h : s.fsw.window with
  | none => rw [closeWindow_none h]; exact .refl s
  | some w =>
    obtain ⟨-, ⟨f, missed⟩, -⟩ := windowMissed_leaves w s
    obtain ⟨-, ⟨b, sgu⟩, -⟩ := closeWindow_leaves h
    rw [missed] at sgu
    exact .of_sgu (onlyWrites_closeWindow s) run (by rw [sgu]) (by rw [sgu]) (by rw [sgu]) (by rw [sgu]) (by rw [sgu])
      (by rw [sgu])

theorem opens_takeRun (run : Bool) (s : State) : SpindleOpens False s (takeRun run s) := by
  have marked (u : State) (b : Bool) : SpindleOpens False u (u.modSgu fun g => { g with stopping := b }) :=
    .of_sgu (onlyWrites_modSgu u _) (.of_perms rfl) rfl rfl rfl rfl rfl rfl
  have state (st : BridgeState) : SpindleOpens False s (s.modFsw fun f => { f with state := st }) :=
    .of_onlyWrites (onlyWrites_modFsw s _) (.of_perms rfl)
  have holds (u : State) (g : AxisRec → AxisRec) : SpindleOpens False u (u.modAxes g) :=
    .of_onlyWrites (onlyWrites_modAxes u g) (.of_perms rfl)
  unfold takeRun
  split
  · split
    · exact .refl s
    · exact ((state .running).trans (holds _ _)).trans (marked _ false)
  · exact .of_onlyWrites (onlyWrites_modFsw s _) (.of_perms rfl)
  · exact ((state .standby).trans (holds _ _)).trans (marked _ _)
  · exact .refl s

theorem opens_modFsw (s : State) (g : Fsw → Fsw) : SpindleOpens False s (s.modFsw g) :=
  .of_onlyWrites (onlyWrites_modFsw s g) (.of_perms rfl)

/-- At the loss of the link a shift that waits is cancelled (R71); one that moves goes on. -/
theorem opens_linkLostEntry (left : Nat) (s : State) : SpindleOpens True s (linkLostEntry left s) := by
  have whole := onlyWrites_linkLostEntry left s
  have run : RunStands s (linkLostEntry left s) := .of_eval
    ((cfg_kept (onlyWrites_spindleLinkLost (linkLostMarked left s))).trans (cfg_kept (onlyWrites_linkLostMarked left s)))
  have stop := spindleStop_kept whole
  by_cases cancels : s.sgu.shift = .awaitPermit ∨ s.sgu.shift = .settled ∧ s.sgu.purgeWait = true
  · have sgu : ∃ sensor, (linkLostEntry left s).sgu = { s.sgu with
        pendingTarget := none, stopping := false, purgeWait := false, target := none, retryTimer := none
        sensorTimer := sensor, shift := if s.sgu.current.isSome then .settled else .unknown } := by
      have e : spindleLinkLost (linkLostMarked left s) = cancelShift ((linkLostMarked left s).modSgu fun g =>
        { g with pendingTarget := none, stopping := false }) := if_pos cancels
      obtain ⟨sensor, sgu⟩ := cancelShift_sgu ((linkLostMarked left s).modSgu fun g =>
        { g with pendingTarget := none, stopping := false })
      rw [linkLostEntry_eq, ileEval_sgu, e]
      exact ⟨sensor, sgu⟩
    obtain ⟨sensor, sgu⟩ := sgu
    have rests : moves s.sgu.shift = false := by rcases cancels with h | ⟨h, -⟩ <;> (rw [h]; rfl)
    refine ⟨cfg_kept whole, tbm_kept whole, stop, by rw [sgu], by rw [sgu], by rw [sgu], by rw [sgu],
      fun m => absurd (rests.symm.trans m) Bool.false_ne_true, fun _ => .inr (.inr (.inr ⟨trivial, ?_⟩)), run⟩
    rw [sgu]
    dsimp only
    split <;> exact Shift.noConfusion
  · have sgu : (linkLostEntry left s).sgu = { s.sgu with pendingTarget := none, stopping := false } := by
      have e : spindleLinkLost (linkLostMarked left s) = (linkLostMarked left s).modSgu fun g =>
        { g with pendingTarget := none, stopping := false } := if_neg cancels
      rw [linkLostEntry_eq, ileEval_sgu, e]
      rfl
    exact .of_sgu whole run (by rw [sgu]) (by rw [sgu]) (by rw [sgu]) (by rw [sgu]) (by rw [sgu]) (by rw [sgu])

/-! ## The demand by the state before -/

section
variable {lost : Prop} {s v : State}

/-- A shift that was creeping has the creep demand of before, while station 6 is enabled (R64). -/
theorem SpindleOpens.demand_creeping (h : SpindleOpens lost s v) (creeping : s.sgu.shift = .creeping) :
    motorDemand v (spindleEnable v) =
      (if spindleEnable v = true ∧ s.pdu.spindleStop = false then creepDemand s else 0, false) := by
  obtain ⟨shift, target⟩ := h.moving (by rw [creeping]; rfl)
  rw [motorDemand_creeping (shift.trans creeping) fun on => spindleEnable_sound on,
    creepDemand_congr target h.creepDir h.cfg, h.spindleStop]

/-- Outside CREEPING and SETTLED the motor stands, and so it does as the link is lost (R54). -/
theorem SpindleOpens.demand_rests (h : SpindleOpens lost s v) (isLost : lost → v.fsw.state = .linkLost)
    (settled : s.sgu.shift ≠ .settled) (creeping : s.sgu.shift ≠ .creeping) :
    motorDemand v (spindleEnable v) = (0, false) := by
  refine motorDemand_rests _ (fun k => creeping (h.creeps k)) ?_
  by_cases l : lost
  · exact .inl (by rw [isLost l]; exact BridgeState.noConfusion)
  · exact .inr (.inr (settledRange_none (.inl fun k => (h.settles k).elim settled l)))

/-- In SETTLED the motor stands outside RUNNING, without a range I to IV, and by its slot (R54). -/
theorem SpindleOpens.demand_settledRests (h : SpindleOpens lost s v) (settled : s.sgu.shift = .settled)
    (rests : v.fsw.state ≠ .running ∨ s.sgu.current = none ∨ s.sgu.current = some .neutral ∨ v.sgu.slot.enable = false) :
    motorDemand v (spindleEnable v) = (0, false) := by
  have still : v.sgu.shift ≠ .creeping := fun k => absurd (settled.symm.trans (h.creeps k)) Shift.noConfusion
  refine motorDemand_rests _ still (rests.imp_right fun rests => ?_)
  rcases rests with none | neutral | disabled
  · exact .inr (settledRange_none (.inr (.inl (h.current.trans none))))
  · exact .inr (settledRange_none (.inr (.inr (h.current.trans neutral))))
  · exact .inl disabled

/-- In RUNNING the enable is forwarded for a shift that moves and by the slot (R55). -/
theorem SpindleOpens.enable_running (h : SpindleOpens lost s v) (running : v.fsw.state = .running)
    (valid : s.isValid .gear = true) (sound : v.sgu.fault = none) (returned : s.sgu.returned = true)
    (wanted : v.sgu.slot.enable = true ∨ moves s.sgu.shift = true) : spindleEnable v = true := by
  have valid' : v.isValid .gear = true := by
    rw [isValid_iff, h.tbm]
    exact (isValid_iff _ _).mp valid
  refine spindleEnable_running running valid' sound (h.returned.trans returned) (wanted.imp_right fun moving => ?_)
  rw [(h.moving moving).1]
  exact moving

/-- In a settled range the demand is the scaled speed of the slot (R53). -/
theorem SpindleOpens.demand_scaled (h : SpindleOpens lost s v) {r : RangeRec} (range : settledRange s = some r)
    (settled : v.sgu.shift = .settled) (running : v.fsw.state = .running) (enabled : spindleEnable v = true)
    (slot : v.sgu.slot.enable = true) (stop : s.pdu.spindleStop = false) (run : s.perms.spindleRun = true)
    (rows : ∀ row ∈ s.cfg.interlock, row.target ≠ .spindleRun) :
    motorDemand v (spindleEnable v) = rangeDemand r s.cfg.gear.motorMax v.sgu.slot := by
  have range' : settledRange v = some r :=
    (settledRange_congr (settled.trans (settledRange_shift range).symm) h.current h.cfg).trans range
  rw [enabled, motorDemand_settled range' (spindleEnable_sound enabled) (h.spindleStop.trans stop) running slot
    (h.run rows run), h.cfg]

end

end Sys2Proof.Machine.Gearbox
end

section
/-! SUPPORT. The commands whose event sends a drive frame, and the station 6 part of that frame. -/

namespace Sys2Proof.Machine.Gearbox

set_option Elab.async false

/-! ## Where a drive frame leaves -/

theorem not_frameSent {s t : State} (h : t.fsw.dPort = s.fsw.dPort) : ¬ frameSent s t := by
  unfold frameSent
  rw [h]
  omega

/-- A drive frame of the command `c` has been formed in a state that opens from `s`, and `t` is the end of its event. -/
def FrameFormed (c : Instr) (s t : State) : Prop :=
  ∃ (lost : Prop) (u r : State), SpindleOpens lost s u ∧ (lost → u.fsw.state = .linkLost) ∧ formedFrom c u r ∧
    ∃ q e, t = finish (frameLeaves q e r)

theorem FrameFormed.intro {c : Instr} {lost : Prop} {s u r : State} {q : Byte} {e : Option EchoStatus}
    (opens : SpindleOpens lost s u) (isLost : lost → u.fsw.state = .linkLost) (formed : formedFrom c u r) :
    FrameFormed c s (finish (frameLeaves q e r)) := ⟨lost, u, r, opens, isLost, formed, q, e, rfl⟩

theorem opens_atExpiry (e : Nat) (s : State) : SpindleOpens False s (atExpiry e s) :=
  .of_onlyWrites (onlyWrites_now {} s _) (.of_perms rfl)

/-- A self-paced frame that leaves after a state that opens from `s`. -/
theorem FrameFormed.selfPaced {c : Instr} {lost : Prop} {s u : State} (opens : SpindleOpens lost s u)
    (isLost : lost → u.fsw.state = .linkLost) : FrameFormed c s (finish (selfPacedFrame u)) := by
  unfold selfPacedFrame
  exact .intro opens isLost (.inl ⟨_, rfl⟩)

theorem periodTimer_formed {s t : State} (h : exec .periodTimerExpiry s = .next t) (sent : frameSent s t) :
    FrameFormed .periodTimerExpiry s t := by
  cases timer : s.fsw.periodTimer with
  | none =>
    have stands : execPeriodTimerExpiry s = .next s := by unfold execPeriodTimerExpiry; rw [timer]; rfl
    obtain rfl : s = t := Host.Outcome.next.inj (stands.symm.trans h)
    exact absurd sent (not_frameSent rfl)
  | some e =>
    obtain rfl := Host.Outcome.next.inj ((answerExpiry_some timer periodExpired s).symm.trans h)
    have closed := ((opens_atExpiry e s).trans (opens_modFsw _ fun f => { f with periodTimer := none })).trans
      (opens_closeWindow _)
    exact .selfPaced closed False.elim

theorem linkTimer_formed {s t : State} (h : exec .linkTimerExpiry s = .next t) (sent : frameSent s t) :
    FrameFormed .linkTimerExpiry s t := by
  cases timer : s.fsw.linkTimer with
  | none =>
    have stands : execLinkTimerExpiry s = .next s := by unfold execLinkTimerExpiry; rw [timer]; rfl
    obtain rfl : s = t := Host.Outcome.next.inj (stands.symm.trans h)
    exact absurd sent (not_frameSent rfl)
  | some e =>
    obtain rfl := Host.Outcome.next.inj ((answerExpiry_some timer linkExpired s).symm.trans h)
    have due : Between s (atExpiry e s) := (Between.refl s).same
    have stopped : Between s (finish ((atExpiry e s).modFsw fun f => { f with linkTimer := none })) :=
      (due.modFsw _).finish
    have entered (stays : linkExpired (atExpiry e s) = enterLinkLost (atExpiry e s)) :
        FrameFormed .linkTimerExpiry s (finish (linkExpired (atExpiry e s))) := by
      have missed := ((due.trans (between_closeWindow _)).modFsw fun f => { f with linkTimer := none }).finish
      change frameSent s (finish (linkExpired (atExpiry e s))) at sent
      rw [stays, enterLinkLost_eq] at sent ⊢
      by_cases first : (closeWindow (atExpiry e s)).fsw.restart = .due
      · rw [if_pos first] at sent
        exact absurd sent (not_frameSent missed.sent)
      · rw [if_neg first]
        refine .selfPaced (lost := True) (SpindleOpens.trans ?_ (opens_linkLostEntry _ _)) fun _ => by rw [linkLostEntry_fsw]
        exact ((opens_atExpiry e s).trans (opens_closeWindow _)).mono False.elim
    have state : (atExpiry e s).fsw.state = s.fsw.state := rfl
    cases st : s.fsw.state
    case standby | running => exact entered (by unfold linkExpired; rw [state, st])
    all_goals
      have stays : linkExpired (atExpiry e s) = (atExpiry e s).modFsw fun f => { f with linkTimer := none } := by
        unfold linkExpired; rw [state, st]
      change frameSent s (finish (linkExpired (atExpiry e s))) at sent
      rw [stays] at sent
      exact absurd sent (not_frameSent stopped.sent)

theorem opens_acceptSeq (q : Byte) (s : State) : SpindleOpens False s (acceptSeq q s) :=
  .of_onlyWrites (w := { fsw := true }) rfl (.of_perms rfl)

/-- The cycle of an accepted frame forms its drive frame, unless the echo before it makes a warm reset due. -/
theorem openCycle_formed {c : Instr} {f : CommandFrame} {gap : Bool} {s u : State} (opens : SpindleOpens False s u)
    (between : Between s u) (empty : noRequest c = true → f.service = [])
    (sent : frameSent s (finish (openCycle f gap u))) : FrameFormed c s (finish (openCycle f gap u)) := by
  unfold openCycle at sent ⊢
  simp only [] at sent ⊢
  by_cases due : (closeWindow u).fsw.restart = .due
  · rw [if_pos due] at sent
    exact absurd sent (not_frameSent (between.trans (between_closeWindow u)).finish.sent)
  · rw [if_neg due]
    have run := ((opens.trans (opens_closeWindow u)).trans (opens_modFsw _ fun f => { f with gapMark := gap })).trans
      (opens_takeRun f.run _)
    exact .intro (run.trans (opens_modFsw _ _)) False.elim (.inr ⟨f, empty, rfl⟩)

theorem commandFrame_formed {data : List Byte} {s t : State} (h : exec (.commandFrame data) s = .next t)
    (sent : frameSent s t) : FrameFormed (.commandFrame data) s t := by
  obtain rfl : finish (commandArrives data s) = t := Host.Outcome.next.inj h
  have counted (g : Counters → Counters) : Between s (finish (s.modCounters g)) := Between.finish (Between.refl s).same
  have kept {u : State} (e : commandArrives data s = u) (k : Between s (finish u)) :
      FrameFormed (.commandFrame data) s (finish (commandArrives data s)) := by
    rw [e] at sent
    exact absurd sent (not_frameSent k.sent)
  cases takes : takesCommands s.fsw with
  | false =>
    cases test : testCommand data with
    | checkFails => exact kept (by simp [commandArrives, takes, test]) (Between.refl s).finish
    | malformed | passes =>
      exact kept (by simp [commandArrives, takes, test]) (counted fun c => { c with refused := c.refused + 1 })
  | true =>
    cases test : testCommand data with
    | checkFails => exact kept (by simp [commandArrives, takes, test]) (counted fun c => { c with check := c.check + 1 })
    | malformed =>
      exact kept (by simp [commandArrives, takes, test]) (counted fun c => { c with malformed := c.malformed + 1 })
    | passes f =>
      by_cases again : s.fsw.lastSeq = some f.seq
      · exact kept (by simp [commandArrives, takes, test, again])
          (counted fun c => { c with duplicates := c.duplicates + 1 })
      have accepted : commandArrives data s = acceptCommand f s := by simp [commandArrives, takes, test, again]
      by_cases lost : (acceptSeq f.seq s).fsw.state = .linkLost
      · have echoed : acceptCommand f s = echoInLinkLost f (isGap s.fsw.lastSeq f.seq) (acceptSeq f.seq s) := if_pos lost
        exact kept (accepted.trans echoed) ((between_acceptSeq f.seq s).trans (between_echoInLinkLost _ _ _)).finish
      · have opened : acceptCommand f s = openCycle f (isGap s.fsw.lastSeq f.seq) (acceptSeq f.seq s) := if_neg lost
        rw [accepted.trans opened] at sent ⊢
        refine openCycle_formed (opens_acceptSeq f.seq s) (between_acceptSeq f.seq s) (fun h => ?_) sent
        simpa only [noRequest, test, decide_eq_true_eq] using h

/-- A drive frame that leaves has been formed in the event of one of three commands (R147, R148, R154). -/
theorem frame_formed {c : Instr} {s t : State} (h : exec c s = .next t) (sent : frameSent s t) : FrameFormed c s t := by
  cases sends : maySendFrame c
  · exact absurd sent (not_frameSent (exec_between sends h).sent)
  · cases c with
    | commandFrame data => exact commandFrame_formed h sent
    | periodTimerExpiry => exact periodTimer_formed h sent
    | linkTimerExpiry => exact linkTimer_formed h sent
    | _ => cases sends

/-! ## The station 6 part of the frame -/

/-- The end of the event leaves the gear record, the bridge state and the table statuses of the frame. -/
theorem frameEnd_leaves (q : Byte) (e : Option EchoStatus) (r : State) :
    (finish (frameLeaves q e r)).sgu = r.sgu ∧ (finish (frameLeaves q e r)).fsw.state = r.fsw.state ∧
      (finish (frameLeaves q e r)).tbm = r.tbm := by
  have whole := onlyWrites_frameLeaves q e r
  refine ⟨?_, ?_, ?_⟩
  · rw [finish_sgu, sgu_kept whole]
  · rw [finish_fsw, frameLeaves_fsw]
  · rw [finish_tbm, tbm_kept whole]

/-- The station 6 part of any drive frame, by the state `v` in which its enable is formed. -/
theorem frame_spindle {c : Instr} {s t : State} (h : exec c s = .next t) (sent : frameSent s t) :
    ∃ v, v.pdu.spindleStop = s.pdu.spindleStop ∧ v.sgu.enableFwd = s.sgu.enableFwd ∧
      t.sgu.enableFwd = spindleEnable v ∧ t.sgu.demand = (motorDemand v (spindleEnable v)).1 ∧
      t.sgu.speedLimited = (motorDemand v (spindleEnable v)).2 ∧ t.fsw.state = v.fsw.state ∧
      (v.isValid .gear = true → t.isValid .gear = true) ∧ t.sgu.returned = v.sgu.returned ∧
      t.sgu.stopping = v.sgu.stopping ∧ (v.sgu.fault = none → t.sgu.fault = none) := by
  obtain ⟨lost, u, r, opens, -, formed, q, e, ends⟩ := frame_formed h sent
  obtain ⟨sl, x, first, last⟩ := formedFrom_stands formed
  obtain ⟨sgu, state, tbm⟩ := frameEnd_leaves q e r
  rw [← ends] at sgu state tbm
  have before := opens_beforeEnable sl.spindle x
  have part : SpindleFormed (beforeEnable sl.spindle x) (spindlePart sl x) := spindleFrame_formed sl.spindle x
  refine ⟨beforeEnable sl.spindle x, before.spindleStop.trans (first.spindleStop.trans opens.spindleStop),
    before.enableFwd.trans (first.enableFwd.trans opens.enableFwd), ?_⟩
  rw [sgu, state]
  refine ⟨last.enableFwd.trans part.enableFwd, last.demand.trans part.demand, last.speedLimited.trans part.speedLimited,
    last.state.trans part.state, fun v => ?_, last.returned.trans part.returned, last.stopping.trans part.stopping,
    fun f => last.fault (part.fault.trans f)⟩
  have formedValid : (spindlePart sl x).isValid .gear = true := by
    rw [isValid_iff, part.tbm]
    exact (isValid_iff _ _).mp v
  rw [isValid_iff, tbm]
  exact (isValid_iff _ _).mp (last.valid formedValid)

/-- Without a request, that state opens from the one in which the command came, and the frame leaves its gear record. -/
theorem frame_spindle_noRequest {c : Instr} {s t : State} (h : exec c s = .next t) (sent : frameSent s t)
    (none : noRequest c = true) : ∃ (lost : Prop) (v : State), SpindleOpens lost s v ∧ (lost → t.fsw.state = .linkLost) ∧
      t.fsw.state = v.fsw.state ∧ t.sgu.enableFwd = spindleEnable v ∧
      t.sgu.demand = (motorDemand v (spindleEnable v)).1 ∧ t.sgu.speedLimited = (motorDemand v (spindleEnable v)).2 ∧
      t.sgu.fault = v.sgu.fault ∧ t.sgu.slot = v.sgu.slot ∧ (t.sgu.shift = .settled → v.sgu.shift = .settled) := by
  obtain ⟨lost, u, r, opens, isLost, formed, q, e, ends⟩ := frame_formed h sent
  obtain ⟨sl, x, first, last⟩ := formedFrom_same none formed
  obtain ⟨sgu, state, -⟩ := frameEnd_leaves q e r
  rw [← ends] at sgu state
  have before := opens_beforeEnable sl.spindle x
  have part : SpindleFormed (beforeEnable sl.spindle x) (spindlePart sl x) := spindleFrame_formed sl.spindle x
  have unmoved : (beforeEnable sl.spindle x).fsw = x.fsw := fsw_kept (onlyWrites_beforeEnable _ x)
  have gear : t.sgu = (spindlePart sl x).sgu := sgu.trans last.sgu
  have bridge : t.fsw.state = (beforeEnable sl.spindle x).fsw.state :=
    state.trans (last.state.trans part.state)
  refine ⟨lost, beforeEnable sl.spindle x, opens.trans ((first.opens.trans before).mono False.elim), fun l => ?_, bridge, ?_⟩
  · rw [bridge, unmoved, first.state, isLost l]
  · rw [gear]
    exact ⟨part.enableFwd, part.demand, part.speedLimited, part.fault, part.slot, part.settled⟩

/-- Settles O29. The enable and the demand of the frame are those of the state in which its part is formed; without a
request that state differs from the one before only as `SpindleOpens` says. -/
theorem spindleDemandAndEnable : Obligations.SpindleDemandAndEnable := by
  unfold Obligations.SpindleDemandAndEnable
  intro c s t h sent g
  refine ⟨?_, ?_, fun none => ?_⟩
  · intro enabled
    obtain ⟨v, -, fwd, enable, -, -, state, valid, returned, stopping, fault⟩ := frame_spindle h sent
    obtain ⟨valid', returned', fault', bridge⟩ := spindleEnable_grounds (enable.symm.trans enabled)
    rw [fwd, ← state, ← stopping] at bridge
    exact ⟨valid valid', returned.trans returned', fault fault', bridge⟩
  · intro off
    obtain ⟨v, stop, -, enable, demand, limited, -⟩ := frame_spindle h sent
    rw [show g.enableFwd = spindleEnable v from enable, ← stop] at off
    rw [motorDemand_off off] at demand limited
    exact ⟨demand, limited⟩
  obtain ⟨lost, v, opens, isLost, state, enable, demand, limited, fault, slot, settled⟩ :=
    frame_spindle_noRequest h sent none
  have zero (stands : motorDemand v (spindleEnable v) = (0, false)) : g.demand = 0 ∧ g.speedLimited = false := by
    rw [stands] at demand limited
    exact ⟨demand, limited⟩
  refine ⟨fun settled creeping => ?_, fun settled rests => ?_, fun creeping => ?_, ?_, ?_⟩
  · exact zero (opens.demand_rests (fun l => state.symm.trans (isLost l)) settled creeping)
  · exact zero (opens.demand_settledRests settled (by rw [← state, ← slot]; exact rests))
  · rw [opens.demand_creeping creeping, ← enable] at demand limited
    exact ⟨limited, demand⟩
  · intro running valid sound returned wanted
    refine enable.trans
      (opens.enable_running (state.symm.trans running) valid (fault.symm.trans sound) returned ?_)
    rw [← slot]
    refine wanted.imp_right fun moving => ?_
    rcases moving with m | m | m | m | m <;> (rw [m]; rfl)
  · intro r range ends _ running enabled slotted stop run rows
    rw [opens.demand_scaled range (settled ends) (state.symm.trans running) (enable.symm.trans enabled)
      (by rw [← slot]; exact slotted) stop run rows, ← slot] at demand limited
    by_cases still : g.slot.speed = 0
    · rw [rangeDemand_zero still] at demand limited
      simp only [still, if_true]
      exact ⟨demand, limited⟩
    · rw [rangeDemand_scaled still] at demand limited
      simp only [still, if_false]
      exact ⟨demand, limited⟩

end Sys2Proof.Machine.Gearbox
end
